-- ==== Sys2Proof/Word.lean ====
section
/-! DEFINITION. The word types of the block: one name for each width that `spec/` gives a register, a field of the
command word or a port. -/

namespace Sys2Proof

/-- The 64-bit command word of the `CMD` port (R80, R81). -/
abbrev CmdWord := BitVec 64

/-- A 32-bit register or response value (R27, R82). -/
abbrev Word := BitVec 32

/-- A 16-bit operand field of the command word, or a 16-bit register (R81, R24). -/
abbrev Half := BitVec 16

/-- An 8-bit field: the opcode and index fields of the command word (R81). -/
abbrev Byte := BitVec 8

/-- A sensor bitmask: bit `i` is sensor `i` (R9, R31). -/
abbrev Bitmask := BitVec 8

/-- The 5-bit code of a control state (R29). -/
abbrev StateCode := BitVec 5

/-- The 9-bit two's complement steering command (R30). -/
abbrev Steering := BitVec 9

/-- An 8-bit two's complement wheel speed command (R30). -/
abbrev Speed := BitVec 8

end Sys2Proof
end

