-- ==== Sys2Proof/Config.lean ====
section
/-! DEFINITION. What an implementation fixes: the constants the spec fixes for every implementation, the parameters of
R7 as one record, the typed form of `FSM_ROM` (R163, R164), and the one free value of the model. -/

namespace Sys2Proof

/-- `N_SENS` (R7): the number of sensors and of bitmask bits. -/
abbrev nSens : Nat := 8

/-- `N_STATES` (R7): the number of control states. -/
abbrev nStates : Nat := 19

/-- `INT16_MAX` (R7, R131): the bound of the proportional term and of the output. -/
abbrev int16Max : Int := 32767

/-- `2^CNT_W - 1` with `CNT_W = 32` (R7, R234): the value at which a counter saturates. -/
abbrev cntMax : Nat := 4294967295

/-- The 19 control states in the order of R29's table. -/
inductive ControlState
  | straightLine
  | largeRightDeviation
  | largeLeftDeviation
  | intersectionApproach
  | intersectionBraking
  | intersectionTurnDecision
  | intersectionTurnLeftEntering
  | intersectionTurnLeftSettling
  | intersectionTurnRightEntering
  | intersectionTurnRightSettling
  | laneChangeLeft1
  | laneChangeLeft2
  | laneChangeLeft3
  | laneChangeRight1
  | laneChangeRight2
  | laneChangeRight3
  | lineLostRecovery1
  | lineLostRecovery2
  | lineLostRecovery3
  deriving DecidableEq, Repr

/-- The `(steer, spdL, spdR)` of a ROM rule, before any clamp (R163). -/
structure RomCmd where
  steer : Steering
  spdL : Speed
  spdR : Speed
  deriving DecidableEq, Repr

/-- A ROM rule: what happens when its guard fires (R163). `none` in `cmd` is hold, `none` in `next` is "remain". -/
structure RomRule where
  cmd : Option RomCmd
  next : Option StateCode
  rst : Bool
  deriving DecidableEq, Repr

/-- The counter that a threshold guard reads (R164). -/
inductive Counter
  | ticks
  | pulses
  deriving DecidableEq, Repr

/-- One entry of a `thr` list: the guard is `counter > threshold` (R164, R171). -/
structure ThrEntry where
  counter : Counter
  threshold : Word
  rule : RomRule
  deriving DecidableEq, Repr

/-- One entry of a `tab` list: the guard is `(m & mask) == pattern` (R164, R172). -/
structure TabEntry where
  mask : Bitmask
  pattern : Bitmask
  rule : RomRule
  deriving DecidableEq, Repr

/-- The configuration `FSM_ROM[s]` of one state (R164). `none` in `cross` or `lost` disables that check. -/
structure StateCfg where
  cross : Option RomRule
  lost : Option RomRule
  thr : List ThrEntry
  tab : List TabEntry
  deriving DecidableEq, Repr

/-- The parameters of R7. None of them is state: no operation writes one (R36, R292). `fsmRom` lists the
configurations of the states 0, 1, 2, … in the order of their codes (R164). -/
structure Config where
  /-- `N_PID` -/
  nPid : Nat
  /-- `MAX_I_TERM` -/
  maxITerm : Nat
  /-- `SCALING_FACTOR` -/
  scalingFactor : Nat
  /-- `STEER_MAX` -/
  steerMax : Nat
  /-- `SPEED_MAX` -/
  speedMax : Nat
  /-- `CROSS_BAND_MIN` -/
  crossBandMin : Nat
  /-- `RAW_W` -/
  rawW : Nat
  /-- `FSM_ROM` -/
  fsmRom : List StateCfg
  deriving DecidableEq, Repr

/-- FREE VALUE (log 3, DESIGN CHOICE: the order, safe). R69: when several requests are made at the same instant, "the block behaves as if they were
performed in one of the possible orders; which one is not fixed". The `n`-th time such a choice is made, the request
served first is chosen by `freeOrder n`; nothing constrains it. -/
opaque Config.freeOrder : Nat → Nat

end Sys2Proof
end

