-- ==== Sys2Proof/Machine/Arith.lean ====
section
/-! DEFINITION. The pseudocode primitives of R12 and the small packing helpers that more than one unit uses. Arithmetic
is exact, on `Int` or `Nat`, and narrowed only where a register is written (R11). -/

namespace Sys2Proof.Machine

/-- `clamp(x, lo, hi)` (R12): `lo` if `x < lo`, `hi` if `x > hi`, else `x`. -/
def clamp (x lo hi : Int) : Int :=
  if x < lo then lo else if hi < x then hi else x

/-- `tdiv(a, b)` (R12, R147): integer division truncating toward zero. -/
def tdiv (a b : Int) : Int := Int.tdiv a b

/-- The threshold law of R117: `floor((min + max) / 2)`, the sum formed exactly. -/
def average (lo hi : Half) : Half := BitVec.ofNat 16 ((lo.toNat + hi.toNat) / 2)

/-- The number whose bit `i` is the `i`-th entry of the list (R9: entry 0 is the least significant bit). -/
def packBits : List Bool → Nat
  | [] => 0
  | b :: bs => b.toNat + 2 * packBits bs

/-- A counter after one event: `min(v + 1, 2^CNT_W - 1)` (R231, R232, R234). -/
def bump (v : Word) : Word := BitVec.ofNat 32 (min (v.toNat + 1) cntMax)

end Sys2Proof.Machine
end

