-- ==== Sys2Proof/Machine/Operands.lean ====
section
/-! DEFINITION. How each operand of R85 is read and when it is legal; and the register read space of R62 as a map from
addresses to the register or view each one names. -/

namespace Sys2Proof.Machine

/-- A PID instance number, a sensor number or a read address: `zext_8` of the `k` field (R85). -/
def indexOf (k : Byte) : Nat := k.toNat

/-- A gain, set point or process value: `sext_16` of its field (R85). -/
def signedOf (v : Half) : Int := v.toInt

/-- R85: a PID instance must be `< N_PID`. -/
def instanceOk (cfg : Config) (k : Byte) : Bool := decide (indexOf k < cfg.nPid)

/-- R85: a sensor index must be `< N_SENS`. -/
def sensorOk (i : Byte) : Bool := decide (indexOf i < nSens)

/-- R85: a gain must be `>= 0`. -/
def gainOk (g : Half) : Bool := decide (0 ≤ signedOf g)

/-- R85: a raw reading, a minimum and a maximum must be `< 2^RAW_W`. -/
def rawOk (cfg : Config) (v : Half) : Bool := decide (v.toNat < 2 ^ cfg.rawW)

/-- The eight readable fields of a PID context, in the order of their addresses (R62). -/
inductive PidField
  | pFactor
  | iFactor
  | dFactor
  | maxError
  | maxSumError
  | sumError
  | lastPv
  | out
  deriving DecidableEq, Repr

/-- What a mapped address of the read space names (R62). -/
inductive ReadReg
  | state
  | steer
  | speedL
  | speedR
  | sense
  | ticks
  | pulses
  | status
  | cmdOut
  | pid (k : Nat) (f : PidField)
  | raw (i : Nat)
  | cmin (i : Nat)
  | cmax (i : Nat)
  | thr (i : Nat)
  deriving DecidableEq, Repr

/-- The PID field at offset `n` of a context's eight addresses (R62). -/
def pidFieldAt : Nat → PidField
  | 0 => .pFactor
  | 1 => .iFactor
  | 2 => .dFactor
  | 3 => .maxError
  | 4 => .maxSumError
  | 5 => .sumError
  | 6 => .lastPv
  | _ => .out

/-- R62: the register that the address `n` names, `none` for an unmapped address. The PID range ends at `0x4F` whatever
`N_PID` is, since `N_PID <= 8` (R7). -/
def readTargetAt (cfg : Config) (n : Nat) : Option ReadReg :=
  if n = 0x00 then some .state
  else if n = 0x01 then some .steer
  else if n = 0x02 then some .speedL
  else if n = 0x03 then some .speedR
  else if n = 0x04 then some .sense
  else if n = 0x05 then some .ticks
  else if n = 0x06 then some .pulses
  else if n = 0x07 then some .status
  else if n = 0x08 then some .cmdOut
  else if n < 0x10 then none
  else if n < 0x50 then
    if (n - 0x10) / 8 < cfg.nPid then some (.pid ((n - 0x10) / 8) (pidFieldAt ((n - 0x10) % 8))) else none
  else if n < 0x80 then none
  else if n < 0x88 then some (.raw (n - 0x80))
  else if n < 0x90 then some (.cmin (n - 0x88))
  else if n < 0x98 then some (.cmax (n - 0x90))
  else if n < 0xA0 then some (.thr (n - 0x98))
  else none

/-- R62, R85: the register that the operand of `RD` names. -/
def readTarget (cfg : Config) (addr : Byte) : Option ReadReg := readTargetAt cfg (indexOf addr)

/-- R85: a read address must be mapped. -/
def mapped (cfg : Config) (addr : Byte) : Bool := (readTarget cfg addr).isSome

end Sys2Proof.Machine
end

