-- ==== Sys2Proof/Syntax.lean ====
section
/-! DEFINITION. The operations of the block: one constructor of `Instr` for each row of `spec/opcode_table.json`, its
operands as wide as the fields of the command word that hold them (R81, R85); and the form in which an operation is
requested on a port (R80 to R84). -/

namespace Sys2Proof

/-- The 17 operations (R86, R83, R84). Operands are the raw fields of R81; their reading as signed or unsigned
integers and their legal ranges are in `Machine/Operands.lean` (R85). -/
inductive Instr
  /-- `NOP` (R250) -/
  | nop
  /-- `RD addr` (R251) -/
  | rd (addr : Byte)
  /-- `PID.INIT k, p, i, d` (R132) -/
  | pidInit (k : Byte) (p i d : Half)
  /-- `PID.STEP k, setpoint, processValue` (R133) -/
  | pidStep (k : Byte) (sp pv : Half)
  /-- `PID.RSTI k` (R141) -/
  | pidRsti (k : Byte)
  /-- `FSM.CYCLE` (R166) -/
  | fsmCycle
  /-- `SENSE.LD m` (R180) -/
  | senseLd (m : Byte)
  /-- `CLS.SAMPLE i, raw` (R111) -/
  | clsSample (i : Byte) (raw : Half)
  /-- `CLS.CLASSIFY` (R112) -/
  | clsClassify
  /-- `CAL.BEGIN` (R113) -/
  | calBegin
  /-- `CAL.UPDATE` (R114) -/
  | calUpdate
  /-- `CAL.END` (R115) -/
  | calEnd
  /-- `CAL.LOAD i, min, max` (R116) -/
  | calLoad (i : Byte) (min max : Half)
  /-- `EV.TICK` (R231) -/
  | evTick
  /-- `EV.ENC` (R232) -/
  | evEnc
  /-- `EV.BOTH` (R233) -/
  | evBoth
  /-- `RESET` (R290) -/
  | reset
  deriving DecidableEq, Repr

/-- One request on one port: a word on `CMD` (R81), a value on `EV` (R83), a value on `RST` (R84). -/
inductive Request
  | command (w : CmdWord)
  | event (ev : BitVec 2)
  | resetLine (rst : BitVec 1)
  deriving DecidableEq, Repr

/-- What the three input ports carry at one instant (R80; log 2: DESIGN CHOICE, safe; log 5: DEDUCED). The command
port holds at most one command (R70); `ev = 0` is no event (R83), `rst = 0` requests nothing (R84). -/
structure Presentation where
  cmd : Option CmdWord
  ev : BitVec 2
  rst : BitVec 1
  deriving DecidableEq, Repr

/-- The operations that are commands: each produces exactly one response (R13). -/
def Instr.isCommand : Instr → Bool
  | .nop | .rd _ | .pidInit _ _ _ _ | .pidStep _ _ _ | .pidRsti _ | .fsmCycle | .senseLd _ | .clsSample _ _
  | .clsClassify | .calBegin | .calUpdate | .calEnd | .calLoad _ _ _ => true
  | .evTick | .evEnc | .evBoth | .reset => false

end Sys2Proof
end

