-- ==== Sys2Proof/WellFormed.lean ====
section
/-! DEFINITION. What is well formed. Of the configuration: R165 for `FSM_ROM` and the constraints of R7 for the other
parameters. Of an instruction: its operand types are exactly the fields of R81, so every term has an encoding and none
needs a check to be encoded; what is checked here is the legal range R85 gives each operand ("must be"). -/

namespace Sys2Proof

/-- R165 (a): a `next` that is present is a state code `< N_STATES`. -/
def RomRule.nextOk (r : RomRule) : Bool := r.next.all (fun c => decide (c.toNat < nStates))

/-- R165 (c): `rst = 1` only where `next` is present. -/
def RomRule.rstOk (r : RomRule) : Bool := !r.rst || r.next.isSome

/-- R165 (a) and (c). -/
def RomRule.wf (r : RomRule) : Bool := r.nextOk && r.rstOk

/-- R165 (d): `pattern & ~mask == 0`. -/
def TabEntry.patternOk (e : TabEntry) : Bool := e.pattern &&& ~~~e.mask == 0

/-- R165 (a) to (d) for an entry of a `tab` list; (b) says that its rule has a command. -/
def TabEntry.wf (e : TabEntry) : Bool := e.rule.wf && e.rule.cmd.isSome && e.patternOk

/-- R165 (a) and (c) for an entry of a `thr` list. -/
def ThrEntry.wf (e : ThrEntry) : Bool := e.rule.wf

/-- R165 for the four parts of one state's configuration. -/
def StateCfg.wf (c : StateCfg) : Bool :=
  c.cross.all RomRule.wf && c.lost.all RomRule.wf && c.thr.all ThrEntry.wf && c.tab.all TabEntry.wf

/-- R164 and R165: `FSM_ROM` has a configuration for each of the `N_STATES` codes, and each is well formed. -/
def romWf (rom : List StateCfg) : Bool := rom.length == nStates && rom.all StateCfg.wf

/-- The constraints of R7 on the parameters other than `FSM_ROM`. -/
def Config.rangesOk (c : Config) : Bool :=
  decide (1 ≤ c.nPid) && decide (c.nPid ≤ 8) && decide (1 ≤ c.maxITerm) && decide (c.maxITerm ≤ 2147418112) &&
  decide (1 ≤ c.scalingFactor) && decide (c.steerMax ≤ 255) && decide (c.speedMax ≤ 127) &&
  decide (1 ≤ c.crossBandMin) && decide (c.crossBandMin ≤ 8) && decide (1 ≤ c.rawW) && decide (c.rawW ≤ 16)

/-- A configuration that the model accepts (R7, R165, U11). -/
def Config.wf (c : Config) : Bool := c.rangesOk && romWf c.fsmRom

/-- R85: the index of the instruction (a PID instance, a sensor or a read address) is in its range. -/
def Instr.indexOk (cfg : Config) : Instr → Bool
  | .rd addr => Machine.mapped cfg addr
  | .pidInit k _ _ _ => Machine.instanceOk cfg k
  | .pidStep k _ _ => Machine.instanceOk cfg k
  | .pidRsti k => Machine.instanceOk cfg k
  | .clsSample i _ => Machine.sensorOk i
  | .calLoad i _ _ => Machine.sensorOk i
  | .nop | .fsmCycle | .senseLd _ | .clsClassify | .calBegin | .calUpdate | .calEnd | .evTick | .evEnc | .evBoth
  | .reset => true

/-- R85: the other operands of the instruction are in their ranges. -/
def Instr.operandsOk (cfg : Config) : Instr → Bool
  | .pidInit _ p i d => Machine.gainOk p && Machine.gainOk i && Machine.gainOk d
  | .clsSample _ raw => Machine.rawOk cfg raw
  | .calLoad _ lo hi => Machine.rawOk cfg lo && Machine.rawOk cfg hi
  | .rd _ | .pidStep _ _ _ | .pidRsti _ | .nop | .fsmCycle | .senseLd _ | .clsClassify | .calBegin | .calUpdate
  | .calEnd | .evTick | .evEnc | .evBoth | .reset => true

/-- R85: every operand of the instruction is in the range the spec gives it under the configuration. -/
def Instr.wellFormed (cfg : Config) (i : Instr) : Bool := i.indexOk cfg && i.operandsOk cfg

end Sys2Proof
end

