-- ==== Sys2Proof/Machine/ReferenceRom.lean ====
section
/-! DEFINITION. The codes of the control states (R29), the reference ROM `REF_ROM` row by row (R200 to R219), and the
values R7 gives the parameters. `REF_ROM` is the spec's own instance of an OPEN parameter (R7, R221): no statement of
this package about the hardware rests on a row of it. -/

namespace Sys2Proof.Machine

/-- The 5-bit code of a control state (R29). -/
def code : ControlState → StateCode
  | .straightLine => 0
  | .largeRightDeviation => 1
  | .largeLeftDeviation => 2
  | .intersectionApproach => 3
  | .intersectionBraking => 4
  | .intersectionTurnDecision => 5
  | .intersectionTurnLeftEntering => 6
  | .intersectionTurnLeftSettling => 7
  | .intersectionTurnRightEntering => 8
  | .intersectionTurnRightSettling => 9
  | .laneChangeLeft1 => 10
  | .laneChangeLeft2 => 11
  | .laneChangeLeft3 => 12
  | .laneChangeRight1 => 13
  | .laneChangeRight2 => 14
  | .laneChangeRight3 => 15
  | .lineLostRecovery1 => 16
  | .lineLostRecovery2 => 17
  | .lineLostRecovery3 => 18

/-- A ROM command `(steer, spdL, spdR)` (R163). -/
def drive (steer spdL spdR : Int) : Option RomCmd :=
  some { steer := BitVec.ofInt 9 steer, spdL := BitVec.ofInt 8 spdL, spdR := BitVec.ofInt 8 spdR }

/-- "hold": the command is absent (R200). -/
def hold : Option RomCmd := none

/-- A rule with `next` absent and `rst = 0`. -/
def stay (cmd : Option RomCmd) : RomRule := { cmd := cmd, next := none, rst := false }

/-- A transition with `rst = 1`. -/
def enter (cmd : Option RomCmd) (s : ControlState) : RomRule := { cmd := cmd, next := some (code s), rst := true }

/-- A transition with `rst = 0`: the counters carry over (R177). -/
def carry (cmd : Option RomCmd) (s : ControlState) : RomRule := { cmd := cmd, next := some (code s), rst := false }

/-- The guard `TICKS > t`. -/
def ticksOver (t : Word) (r : RomRule) : ThrEntry := { counter := .ticks, threshold := t, rule := r }

/-- The guard `PULSES > t`. -/
def pulsesOver (t : Word) (r : RomRule) : ThrEntry := { counter := .pulses, threshold := t, rule := r }

/-- The guard `(m & mask) == p`. -/
def masked (mask p : Bitmask) (r : RomRule) : TabEntry := { mask := mask, pattern := p, rule := r }

/-- The guard `(m & 0xFF) == p`. -/
def exactly (p : Bitmask) (r : RomRule) : TabEntry := masked 0xFF p r

/-- The guard `(m & 0x00) == 0x00`, which every bitmask meets. -/
def always (r : RomRule) : TabEntry := masked 0x00 0x00 r

/-- `REF_ROM[0]`, state `StraightLine` (R201). -/
def refStraightLine : StateCfg :=
  { cross := some (enter (drive 0 0 0) .intersectionApproach)
    lost := some (enter hold .lineLostRecovery1)
    thr := []
    tab := [
      exactly 0x18 (stay (drive 0 100 100)),
      exactly 0x08 (stay (drive 10 100 90)),
      exactly 0x0C (stay (drive 20 100 80)),
      exactly 0x04 (stay (drive 35 100 70)),
      exactly 0x06 (stay (drive 50 100 60)),
      exactly 0x02 (enter (drive 85 100 40) .largeRightDeviation),
      exactly 0x10 (stay (drive (-10) 90 100)),
      exactly 0x30 (stay (drive (-20) 80 100)),
      exactly 0x20 (stay (drive (-35) 70 100)),
      exactly 0x60 (stay (drive (-50) 60 100)),
      exactly 0x40 (enter (drive (-85) 40 100) .largeLeftDeviation),
      exactly 0x1F (enter (drive 0 40 40) .laneChangeRight1),
      exactly 0xF8 (enter (drive 0 40 40) .laneChangeLeft1)] }

/-- `REF_ROM[1]`, state `LargeRightDeviation` (R202). -/
def refLargeRightDeviation : StateCfg :=
  { cross := some (enter (drive 0 0 0) .intersectionApproach)
    lost := none
    thr := [
      ticksOver 200 (enter hold .lineLostRecovery1)]
    tab := [
      exactly 0x06 (enter (drive 50 100 60) .straightLine),
      masked 0x06 0x06 (stay (drive 60 100 55)),
      exactly 0x03 (stay (drive 100 100 30)),
      exactly 0x01 (stay (drive 120 100 20))] }

/-- `REF_ROM[2]`, state `LargeLeftDeviation` (R203). -/
def refLargeLeftDeviation : StateCfg :=
  { cross := some (enter (drive 0 0 0) .intersectionApproach)
    lost := none
    thr := [
      ticksOver 200 (enter hold .lineLostRecovery1)]
    tab := [
      exactly 0x60 (enter (drive (-50) 60 100) .straightLine),
      masked 0x60 0x60 (stay (drive (-60) 55 100)),
      exactly 0xC0 (stay (drive (-100) 30 100)),
      exactly 0x80 (stay (drive (-120) 20 100))] }

/-- `REF_ROM[3]`, state `IntersectionApproach` (R204). -/
def refIntersectionApproach : StateCfg :=
  { cross := none
    lost := none
    thr := [
      pulsesOver 20 (enter (drive 0 0 0) .intersectionBraking),
      ticksOver 200 (enter (drive 0 0 0) .intersectionBraking)]
    tab := [
      always (stay (drive 0 0 0))] }

/-- `REF_ROM[4]`, state `IntersectionBraking` (R205). -/
def refIntersectionBraking : StateCfg :=
  { cross := none
    lost := none
    thr := [
      ticksOver 100 (carry (drive 0 40 40) .intersectionTurnDecision)]
    tab := [
      always (stay (drive 0 0 0))] }

/-- `REF_ROM[5]`, state `IntersectionTurnDecision` (R206). -/
def refIntersectionTurnDecision : StateCfg :=
  { cross := none
    lost := none
    thr := [
      ticksOver 2000 (enter hold .straightLine)]
    tab := [
      exactly 0xF8 (enter (drive (-150) 10 50) .intersectionTurnLeftEntering),
      exactly 0x1F (enter (drive 150 50 10) .intersectionTurnRightEntering),
      exactly 0x18 (stay (drive 0 40 40)),
      exactly 0x0C (stay (drive 15 40 35)),
      exactly 0x30 (stay (drive (-15) 35 40))] }

/-- `REF_ROM[6]`, state `IntersectionTurnLeftEntering` (R207). -/
def refIntersectionTurnLeftEntering : StateCfg :=
  { cross := none
    lost := none
    thr := [
      pulsesOver 20 (enter hold .intersectionTurnLeftSettling),
      ticksOver 500 (enter hold .intersectionTurnLeftSettling)]
    tab := [
      always (stay (drive (-135) 10 50))] }

/-- `REF_ROM[7]`, state `IntersectionTurnLeftSettling` (R208). -/
def refIntersectionTurnLeftSettling : StateCfg :=
  { cross := none
    lost := none
    thr := [
      ticksOver 1000 (enter hold .lineLostRecovery1)]
    tab := [
      exactly 0x18 (enter (drive 0 100 100) .straightLine),
      exactly 0x30 (enter (drive (-20) 80 100) .straightLine),
      exactly 0x60 (enter (drive (-50) 60 100) .straightLine),
      always (stay (drive (-135) 10 50))] }

/-- `REF_ROM[8]`, state `IntersectionTurnRightEntering` (R209). -/
def refIntersectionTurnRightEntering : StateCfg :=
  { cross := none
    lost := none
    thr := [
      pulsesOver 20 (enter hold .intersectionTurnRightSettling),
      ticksOver 500 (enter hold .intersectionTurnRightSettling)]
    tab := [
      always (stay (drive 135 50 10))] }

/-- `REF_ROM[9]`, state `IntersectionTurnRightSettling` (R210). -/
def refIntersectionTurnRightSettling : StateCfg :=
  { cross := none
    lost := none
    thr := [
      ticksOver 1000 (enter hold .lineLostRecovery1)]
    tab := [
      exactly 0x18 (enter (drive 0 100 100) .straightLine),
      exactly 0x0C (enter (drive 20 100 80) .straightLine),
      exactly 0x06 (enter (drive 50 100 60) .straightLine),
      always (stay (drive 135 50 10))] }

/-- `REF_ROM[10]`, state `LaneChangeLeft1` (R211). -/
def refLaneChangeLeft1 : StateCfg :=
  { cross := some (enter (drive 0 0 0) .intersectionApproach)
    lost := none
    thr := [
      pulsesOver 20 (enter (drive (-40) 31 40) .laneChangeLeft2),
      ticksOver 300 (enter (drive (-40) 31 40) .laneChangeLeft2)]
    tab := [
      always (stay (drive 0 40 40))] }

/-- `REF_ROM[11]`, state `LaneChangeLeft2` (R212). -/
def refLaneChangeLeft2 : StateCfg :=
  { cross := none
    lost := none
    thr := [
      ticksOver 1000 (enter hold .lineLostRecovery1)]
    tab := [
      exactly 0x00 (enter (drive (-40) 31 40) .laneChangeLeft3),
      always (stay (drive (-40) 31 40))] }

/-- `REF_ROM[12]`, state `LaneChangeLeft3` (R213). -/
def refLaneChangeLeft3 : StateCfg :=
  { cross := none
    lost := none
    thr := [
      ticksOver 2000 (enter hold .lineLostRecovery1)]
    tab := [
      exactly 0x18 (enter (drive 0 100 100) .straightLine),
      exactly 0x30 (enter (drive (-20) 80 100) .straightLine),
      exactly 0x0C (enter (drive 20 100 80) .straightLine),
      always (stay (drive (-40) 31 40))] }

/-- `REF_ROM[13]`, state `LaneChangeRight1` (R214). -/
def refLaneChangeRight1 : StateCfg :=
  { cross := some (enter (drive 0 0 0) .intersectionApproach)
    lost := none
    thr := [
      pulsesOver 20 (enter (drive 40 40 31) .laneChangeRight2),
      ticksOver 300 (enter (drive 40 40 31) .laneChangeRight2)]
    tab := [
      always (stay (drive 0 40 40))] }

/-- `REF_ROM[14]`, state `LaneChangeRight2` (R215). -/
def refLaneChangeRight2 : StateCfg :=
  { cross := none
    lost := none
    thr := [
      ticksOver 1000 (enter hold .lineLostRecovery1)]
    tab := [
      exactly 0x00 (enter (drive 40 40 31) .laneChangeRight3),
      always (stay (drive 40 40 31))] }

/-- `REF_ROM[15]`, state `LaneChangeRight3` (R216). -/
def refLaneChangeRight3 : StateCfg :=
  { cross := none
    lost := none
    thr := [
      ticksOver 2000 (enter hold .lineLostRecovery1)]
    tab := [
      exactly 0x18 (enter (drive 0 100 100) .straightLine),
      exactly 0x0C (enter (drive 20 100 80) .straightLine),
      exactly 0x30 (enter (drive (-20) 80 100) .straightLine),
      always (stay (drive 40 40 31))] }

/-- `REF_ROM[16]`, state `LineLostRecovery1` (R217). -/
def refLineLostRecovery1 : StateCfg :=
  { cross := none
    lost := none
    thr := [
      ticksOver 100 (enter (drive 0 30 30) .lineLostRecovery2)]
    tab := [
      masked 0x18 0x18 (enter (drive 0 60 60) .straightLine),
      masked 0x0C 0x0C (enter (drive 20 60 50) .straightLine),
      masked 0x30 0x30 (enter (drive (-20) 50 60) .straightLine)] }

/-- `REF_ROM[17]`, state `LineLostRecovery2` (R218). -/
def refLineLostRecovery2 : StateCfg :=
  { cross := none
    lost := none
    thr := [
      pulsesOver 20 (enter (drive 0 0 0) .lineLostRecovery3),
      ticksOver 1000 (enter (drive 0 0 0) .lineLostRecovery3)]
    tab := [
      masked 0x18 0x18 (enter (drive 0 60 60) .straightLine),
      masked 0x0C 0x0C (enter (drive 20 60 50) .straightLine),
      masked 0x30 0x30 (enter (drive (-20) 50 60) .straightLine)] }

/-- `REF_ROM[18]`, state `LineLostRecovery3` (R219). -/
def refLineLostRecovery3 : StateCfg :=
  { cross := none
    lost := none
    thr := [
      ticksOver 2000 (enter (drive 0 30 30) .lineLostRecovery1)]
    tab := [
      masked 0x18 0x18 (enter (drive 0 60 60) .straightLine),
      masked 0x0C 0x0C (enter (drive 20 60 50) .straightLine),
      masked 0x30 0x30 (enter (drive (-20) 50 60) .straightLine)] }

/-- `REF_ROM` (R200): the configurations of the states 0 to 18. -/
def refRom : List StateCfg :=
  [refStraightLine,
   refLargeRightDeviation,
   refLargeLeftDeviation,
   refIntersectionApproach,
   refIntersectionBraking,
   refIntersectionTurnDecision,
   refIntersectionTurnLeftEntering,
   refIntersectionTurnLeftSettling,
   refIntersectionTurnRightEntering,
   refIntersectionTurnRightSettling,
   refLaneChangeLeft1,
   refLaneChangeLeft2,
   refLaneChangeLeft3,
   refLaneChangeRight1,
   refLaneChangeRight2,
   refLaneChangeRight3,
   refLineLostRecovery1,
   refLineLostRecovery2,
   refLineLostRecovery3]

/-- The values that R7 fixes for the parameters. -/
def defaultConfig : Config :=
  { nPid := 2
    maxITerm := 1073741823
    scalingFactor := 128
    steerMax := 135
    speedMax := 100
    crossBandMin := 6
    rawW := 10
    fsmRom := refRom }

end Sys2Proof.Machine
end

