-- ==== Sys2Proof/Machine/Registers.lean ====
section
/-! DEFINITION. The registers of the block, exactly those of R20, with their widths (R24, R27, R29 to R31, R33), and
their values after reset (R38). -/

namespace Sys2Proof.Machine

/-- The context `PID[k]` of one PID instance (R24). -/
structure PidCtx where
  /-- `P_FACTOR` -/
  pFactor : Half
  /-- `I_FACTOR` -/
  iFactor : Half
  /-- `D_FACTOR` -/
  dFactor : Half
  /-- `MAX_ERROR` -/
  maxError : Half
  /-- `MAX_SUM_ERROR` -/
  maxSumError : Word
  /-- `SUM_ERROR` -/
  sumError : Word
  /-- `LAST_PV` -/
  lastPv : Half
  /-- `OUT` -/
  out : Half
  /-- `VALID` -/
  valid : Bool
  deriving DecidableEq, Repr

/-- The four registers of one sensor (R33). Each is `RAW_W` bits wide, a parameter between 1 and 16 (R7); it is held in
16 bits whose upper bits stay 0. DESIGN CHOICE, safe (log 9). -/
structure Sensor where
  /-- `RAW[i]` -/
  raw : Half
  /-- `CMIN[i]` -/
  cmin : Half
  /-- `CMAX[i]` -/
  cmax : Half
  /-- `THR[i]` -/
  thr : Half
  deriving DecidableEq, Repr

/-- "The state of the block is exactly" this (R20). `pid` lists `PID[0] .. PID[N_PID-1]`, `sensors` the registers of the
sensors `0 .. N_SENS-1`. -/
structure Regs where
  /-- `PID[k]` (R24) -/
  pid : List PidCtx
  /-- `TICKS` (R27) -/
  ticks : Word
  /-- `PULSES` (R27) -/
  pulses : Word
  /-- `STATE` (R29) -/
  state : StateCode
  /-- `STEER` (R30) -/
  steer : Steering
  /-- `SPEED_L` (R30) -/
  speedL : Speed
  /-- `SPEED_R` (R30) -/
  speedR : Speed
  /-- `SENSE` (R31) -/
  sense : Bitmask
  /-- `RAW[i]`, `CMIN[i]`, `CMAX[i]`, `THR[i]` (R33) -/
  sensors : List Sensor
  /-- `CAL_ACTIVE` (R23, R33) -/
  calActive : Bool
  deriving DecidableEq, Repr

/-- A PID context after reset: every field 0 (R38). -/
def PidCtx.reset : PidCtx :=
  { pFactor := 0, iFactor := 0, dFactor := 0, maxError := 0, maxSumError := 0, sumError := 0, lastPv := 0, out := 0
    valid := false }

/-- A sensor's registers after reset: every one 0 (R38). -/
def Sensor.reset : Sensor := { raw := 0, cmin := 0, cmax := 0, thr := 0 }

/-- Every register after reset (R38, R291), for a block with `nPid` PID instances. -/
def Regs.reset (nPid : Nat) : Regs :=
  { pid := List.replicate nPid PidCtx.reset
    ticks := 0
    pulses := 0
    state := 0
    steer := 0
    speedL := 0
    speedR := 0
    sense := 0
    sensors := List.replicate nSens Sensor.reset
    calActive := false }

end Sys2Proof.Machine
end

