-- ==== Sys2Proof/Machine/State.lean ====
section
/-! DEFINITION. The state of the model: the block's registers (R20), and beside them what the spec calls "not state" but
a step needs as data (R36): the configuration, the host's stream of requests, and the response of the last step. The
reasons a step can stop, and the state after reset. -/

namespace Sys2Proof.Machine

/-- The response status (R263). The codes 5 to 15 are never produced, so the type has no value for them (U9). -/
inductive Status
  /-- 0: the command was performed. -/
  | ok
  /-- 1: the command word matches no row of R87. -/
  | illegalOp
  /-- 2: the `k` field is out of range for the operation. -/
  | badIndex
  /-- 3: an operand is outside its legal range. -/
  | badOperand
  /-- 4: the operation is not allowed in the block's present condition. -/
  | notReady
  deriving DecidableEq, Repr

/-- A response on the `RESP` port (R82). -/
structure Response where
  status : Status
  value : Word
  deriving DecidableEq, Repr

/-- The machine's state. -/
structure State where
  /-- The block's registers: the spec's state, all of it (R20). -/
  regs : Regs
  /-- The parameters of R7. The MODEL's field: "not state, but configuration" (R36); no operation writes it.
  DESIGN CHOICE, safe for claims about every well-formed value, unsafe for one about an OPEN default (log 1). -/
  cfg : Config
  /-- What the ports still present, one entry for each instant, the earliest first. The MODEL's field: the host's
  stream (R22, R36), which no operation reads. DESIGN CHOICE, safe (log 2). -/
  pending : List Presentation
  /-- How many orderings of simultaneous requests have been taken. The MODEL's field: the argument of the free value
  `Config.freeOrder` (R69). DESIGN CHOICE, safe (log 3). -/
  choices : Nat
  /-- What the last step put on `RESP`, `none` if it produced no response. The MODEL's field: a response "is an output
  of the step, not kept" (R36). DESIGN CHOICE, safe (log 4). -/
  resp : Option Response
  deriving DecidableEq, Repr

/-- The faults of the machine. There is none: "There is no fault state, no halted state, no lock-up and no condition
that needs a reset to clear" (R260). -/
inductive Fault
  deriving DecidableEq, Repr

/-- Why the model refuses to go on. Neither of the last two is met in a run from `State.reset`. -/
inductive Refusal
  /-- Raised by an arm of `exec` that has no meaning yet; there is no such arm. Safe. -/
  | notModelled (mnemonic : String)
  /-- Raised by `step`: the configuration breaks R165 or a constraint of R7, and "the model refuses the configuration;
  no behaviour is defined for it" (U11). DEDUCED, safe (log 7): nothing can be proved of such a block's next state. -/
  | illFormedConfiguration
  /-- Raised by `FSM.CYCLE` while `STATE` holds a reserved code 19 to 31, which "are reserved and are never held" (R29,
  U10). DESIGN CHOICE, safe (log 6): the spec gives no effect there, and no operation writes such a code. -/
  | reservedStateCode
  deriving DecidableEq, Repr

/-- What one operation or one step comes to. -/
abbrev Result := Host.Outcome State Fault Refusal

/-- The machine right after reset: every register at the value of R38 (R290, R291), the parameters at the values of R7,
nothing presented on any port yet, no response (R290). -/
def State.reset : State :=
  { regs := Regs.reset defaultConfig.nPid
    cfg := defaultConfig
    pending := []
    choices := 0
    resp := none }

end Sys2Proof.Machine
end

