-- ==== Sys2Proof/Machine/Ops.lean ====
section
/-! DEFINITION. The operations that the meanings share: how a command ends (R12, R262), the indexed registers, the
control-output encoder (R179) and the values on the output ports (R80, R82). The block takes no exception and has no
return from one (R260, R269, R270); the rejection of a command is the one shared way of not performing it. -/

namespace Sys2Proof.Machine

/-- The 4-bit code of a status (R263). -/
def statusCode : Status → BitVec 4
  | .ok => 0
  | .illegalOp => 1
  | .badIndex => 2
  | .badOperand => 3
  | .notReady => 4

/-- `RESP = {status[3:0], value[31:0]}`, 36 bits (R80, R82). -/
def respWord (r : Response) : BitVec 36 := statusCode r.status ++ r.value

/-- `respond v` (R12): the command ends with status `OK` and value `v`. -/
def respond (v : Word) (s : State) : Result := .next { s with resp := some { status := .ok, value := v } }

/-- `reject st` (R12, R262): the command ends with status `st` and value 0, and writes no register. -/
def reject (st : Status) (s : State) : Result := .next { s with resp := some { status := st, value := 0 } }

/-- The PID context with index `k` (R24). For an index that no context has, which every operation rejects before it
reads (R90), the reset context. DESIGN CHOICE, safe in every reachable state (log 11). -/
def pidCtx (s : State) (k : Nat) : PidCtx := s.regs.pid.getD k PidCtx.reset

/-- The state with `PID[k]` replaced. -/
def setPid (s : State) (k : Nat) (c : PidCtx) : State :=
  { s with regs := { s.regs with pid := s.regs.pid.set k c } }

/-- The registers of sensor `i` (R33). For an index that no sensor has, the reset registers. DESIGN CHOICE, safe
in every reachable state (log 11). -/
def sensor (s : State) (i : Nat) : Sensor := s.regs.sensors.getD i Sensor.reset

/-- The state with the registers of sensor `i` replaced. -/
def setSensor (s : State) (i : Nat) (x : Sensor) : State :=
  { s with regs := { s.regs with sensors := s.regs.sensors.set i x } }

/-- The state with every sensor's registers changed in the same way. -/
def mapSensors (s : State) (f : Sensor → Sensor) : State :=
  { s with regs := { s.regs with sensors := s.regs.sensors.map f } }

/-- The state with another bitmask in `SENSE` (R31). -/
def setSense (s : State) (m : Bitmask) : State := { s with regs := { s.regs with sense := m } }

/-- `CMDOUT = {0b00, STATE, enc_9(STEER), enc_8(SPEED_L), enc_8(SPEED_R)}` (R32, R179). -/
def cmdOut (s : State) : Word :=
  (0 : BitVec 2) ++ s.regs.state ++ s.regs.steer ++ s.regs.speedL ++ s.regs.speedR

/-- The output `O_STATE`, the diagnostic code (R80, R185). -/
def outState (s : State) : StateCode := s.regs.state

/-- The output `O_STEER` (R80). -/
def outSteer (s : State) : Steering := s.regs.steer

/-- The output `O_SPEED_L` (R80). -/
def outSpeedL (s : State) : Speed := s.regs.speedL

/-- The output `O_SPEED_R` (R80). -/
def outSpeedR (s : State) : Speed := s.regs.speedR

/-- A command word that is none of R87's rows: rejected with `ILLEGAL_OP` (R88). -/
def rejectIllegal (s : State) : Result := reject .illegalOp s

end Sys2Proof.Machine
end

