-- ==== Sys2Proof/Machine/Flags.lean ====
section
/-! DEFINITION. The status flags. The block has no condition codes; its flags are `PID[k].VALID` and `CAL_ACTIVE` (R23),
and `STATUS` shows them (R35). -/

namespace Sys2Proof.Machine

/-- `PID[k].VALID` (R23). -/
def valid (s : State) (k : Nat) : Bool := (pidCtx s k).valid

/-- `CAL_ACTIVE` (R23). -/
def calActive (s : State) : Bool := s.regs.calActive

/-- The state with `CAL_ACTIVE` set or cleared. -/
def setCalActive (s : State) (b : Bool) : State := { s with regs := { s.regs with calActive := b } }

/-- `STATUS` (R35): bit 0 is `CAL_ACTIVE`, bit `8 + k` is `PID[k].VALID` for `k < N_PID`, every other bit 0. -/
def status (s : State) : Word :=
  BitVec.ofNat 32 ((calActive s).toNat + 256 * packBits (s.regs.pid.map PidCtx.valid))

end Sys2Proof.Machine
end

