-- ==== Sys2Proof/Machine/Access.lean ====
section
/-! DEFINITION. `NOP` and `RD` (R250, R251), and the value the read space gives at each address (R62). -/

namespace Sys2Proof.Machine

/-- A PID field as the read space gives it: sign-extended to 32 bits (R62). -/
def pidFieldValue (c : PidCtx) : PidField → Word
  | .pFactor => c.pFactor.signExtend 32
  | .iFactor => c.iFactor.signExtend 32
  | .dFactor => c.dFactor.signExtend 32
  | .maxError => c.maxError.signExtend 32
  | .maxSumError => c.maxSumError
  | .sumError => c.sumError
  | .lastPv => c.lastPv.signExtend 32
  | .out => c.out.signExtend 32

/-- `RegRead` (R12, R62): the 32-bit value of a register or view, extended as the table's last column says. -/
def regRead (s : State) : ReadReg → Word
  | .state => s.regs.state.setWidth 32
  | .steer => s.regs.steer.signExtend 32
  | .speedL => s.regs.speedL.signExtend 32
  | .speedR => s.regs.speedR.signExtend 32
  | .sense => s.regs.sense.setWidth 32
  | .ticks => s.regs.ticks
  | .pulses => s.regs.pulses
  | .status => status s
  | .cmdOut => cmdOut s
  | .pid k f => pidFieldValue (pidCtx s k) f
  | .raw i => (sensor s i).raw.setWidth 32
  | .cmin i => (sensor s i).cmin.setWidth 32
  | .cmax i => (sensor s i).cmax.setWidth 32
  | .thr i => (sensor s i).thr.setWidth 32

/-- `NOP` (R250). -/
def execNop (s : State) : Result := respond 0 s

/-- `RD addr` (R251). -/
def execRd (addr : Byte) (s : State) : Result :=
  match readTarget s.cfg addr with
  | none => reject .badIndex s
  | some r => respond (regRead s r) s

end Sys2Proof.Machine
end

