-- ==== Sys2Proof/Machine/Classifier.lean ====
section
/-! DEFINITION. The sensor classifier: `CLS.SAMPLE` (R111), `CLS.CLASSIFY` (R112), `CAL.BEGIN` (R113), `CAL.UPDATE` (R114),
`CAL.END` (R115) and `CAL.LOAD` (R116). -/

namespace Sys2Proof.Machine

/-- The classification law of one sensor: dark exactly when the reading is below the threshold, unsigned and strict
(R110). -/
def dark (x : Sensor) : Bool := decide (x.raw.toNat < x.thr.toNat)

/-- The bitmask of the sensors: bit `i` is sensor `i` (R112). -/
def classify (xs : List Sensor) : Bitmask := BitVec.ofNat 8 (packBits (xs.map dark))

/-- `2^RAW_W - 1`, the identity of `min` over the raw range (R113). -/
def rawMax (cfg : Config) : Half := BitVec.ofNat 16 (2 ^ cfg.rawW - 1)

/-- One sensor at the start of a session (R113). -/
def beginSensor (cfg : Config) (x : Sensor) : Sensor := { x with cmin := rawMax cfg, cmax := 0 }

/-- One sensor after its reading is folded in: `min(CMIN, RAW)` and `max(CMAX, RAW)`, unsigned (R114). -/
def updateSensor (x : Sensor) : Sensor :=
  { x with
    cmin := if x.raw.toNat < x.cmin.toNat then x.raw else x.cmin
    cmax := if x.cmax.toNat < x.raw.toNat then x.raw else x.cmax }

/-- One sensor at the end of a session: its threshold (R115, R117). -/
def endSensor (x : Sensor) : Sensor := { x with thr := average x.cmin x.cmax }

/-- One sensor with a stored calibration pair (R116, R117). -/
def loadSensor (lo hi : Half) (x : Sensor) : Sensor := { x with cmin := lo, cmax := hi, thr := average lo hi }

/-- `CLS.SAMPLE i, raw` (R111). -/
def execClsSample (i : Byte) (raw : Half) (s : State) : Result :=
  if !sensorOk i then reject .badIndex s
  else if !rawOk s.cfg raw then reject .badOperand s
  else respond 0 (setSensor s (indexOf i) { sensor s (indexOf i) with raw := raw })

/-- `CLS.CLASSIFY` (R112). -/
def execClsClassify (s : State) : Result :=
  if calActive s then reject .notReady s
  else respond ((classify s.regs.sensors).setWidth 32) (setSense s (classify s.regs.sensors))

/-- `CAL.BEGIN` (R113). -/
def execCalBegin (s : State) : Result :=
  if calActive s then reject .notReady s
  else respond 0 (setCalActive (mapSensors s (beginSensor s.cfg)) true)

/-- `CAL.UPDATE` (R114). -/
def execCalUpdate (s : State) : Result :=
  if !calActive s then reject .notReady s
  else respond 0 (mapSensors s updateSensor)

/-- `CAL.END` (R115). -/
def execCalEnd (s : State) : Result :=
  if !calActive s then reject .notReady s
  else respond 0 (setCalActive (mapSensors s endSensor) false)

/-- `CAL.LOAD i, min, max` (R116). -/
def execCalLoad (i : Byte) (lo hi : Half) (s : State) : Result :=
  if !sensorOk i then reject .badIndex s
  else if !(rawOk s.cfg lo && rawOk s.cfg hi) then reject .badOperand s
  else if calActive s then reject .notReady s
  else respond 0 (setSensor s (indexOf i) (loadSensor lo hi (sensor s (indexOf i))))

end Sys2Proof.Machine
end

