-- ==== Sys2Proof/Machine/Counters.lean ====
section
/-! DEFINITION. The event counters: `EV.TICK` (R231), `EV.ENC` (R232) and `EV.BOTH` (R233). An event is one atomic
increment and produces no response; it cannot be rejected, masked or delayed (R267). -/

namespace Sys2Proof.Machine

/-- The state after one tick: `TICKS <- min(TICKS + 1, 2^CNT_W - 1)` (R231). -/
def tick (s : State) : State := { s with regs := { s.regs with ticks := bump s.regs.ticks } }

/-- The state after one encoder edge: `PULSES <- min(PULSES + 1, 2^CNT_W - 1)` (R232). -/
def encoderEdge (s : State) : State := { s with regs := { s.regs with pulses := bump s.regs.pulses } }

/-- `EV.TICK` (R231). -/
def execEvTick (s : State) : Result := .next (tick s)

/-- `EV.ENC` (R232). -/
def execEvEnc (s : State) : Result := .next (encoderEdge s)

/-- `EV.BOTH` (R233): exactly one tick and one encoder edge. -/
def execEvBoth (s : State) : Result := .next (encoderEdge (tick s))

end Sys2Proof.Machine
end

