-- ==== Sys2Proof/Machine/Fsm.lean ====
section
/-! DEFINITION. The motion state machine: the selection of a rule (R166 to R173), its actions (R174, R175),
`FSM.CYCLE` (R166) and `SENSE.LD` (R180). -/

namespace Sys2Proof.Machine

/-- `Cross(m)` (R168): for some `j`, the `band` bits `j, j+1, …` of the bitmask are all 1, with no wrap-around. -/
def cross (band : Nat) (m : Bitmask) : Bool :=
  (List.range (nSens + 1 - band)).any (fun j => (List.range band).all (fun b => m.getLsbD (j + b)))

/-- `Lost(m)` (R169): all sensors light. -/
def lost (m : Bitmask) : Bool := m == 0

/-- The value that a threshold guard compares (R164). -/
def counterValue (t e : Word) : Counter → Word
  | .ticks => t
  | .pulses => e

/-- The guard of a `thr` entry: `counter > T`, strict and unsigned (R171). -/
def thrFires (t e : Word) (x : ThrEntry) : Bool := decide (x.threshold.toNat < (counterValue t e x.counter).toNat)

/-- The guard of a `tab` entry: masked equality (R172). -/
def tabFires (m : Bitmask) (x : TabEntry) : Bool := m &&& x.mask == x.pattern

/-- Phase 1 (R170): the cross rule, then the lost rule, each only where the state has it. -/
def selectComposite (band : Nat) (c : StateCfg) (m : Bitmask) : Option RomRule :=
  if c.cross.isSome && cross band m then c.cross
  else if c.lost.isSome && lost m then c.lost
  else none

/-- Phase 2 (R171): the first `thr` entry whose guard holds. -/
def selectThreshold (c : StateCfg) (t e : Word) : Option RomRule := (c.thr.find? (thrFires t e)).map (·.rule)

/-- Phase 3 (R172, R173): the first `tab` entry whose guard holds. -/
def selectTable (c : StateCfg) (m : Bitmask) : Option RomRule := (c.tab.find? (tabFires m)).map (·.rule)

/-- `Select` (R166) in the configuration of one state: the first guard that holds over the three phases. -/
def select (band : Nat) (c : StateCfg) (m : Bitmask) (t e : Word) : Option RomRule :=
  match selectComposite band c m with
  | some r => some r
  | none =>
    match selectThreshold c t e with
    | some r => some r
    | none => selectTable c m

/-- A ROM steering value clamped as it is written to `STEER` (R174). -/
def clampSteer (cfg : Config) (v : Steering) : Steering :=
  BitVec.ofInt 9 (clamp v.toInt (-(cfg.steerMax : Int)) cfg.steerMax)

/-- A ROM speed clamped as it is written to a speed register (R174). -/
def clampSpeed (cfg : Config) (v : Speed) : Speed :=
  BitVec.ofInt 8 (clamp v.toInt (-(cfg.speedMax : Int)) cfg.speedMax)

/-- The command of a fired rule: the three command registers together, or not at all (R174). -/
def applyCmd (cfg : Config) (c : Option RomCmd) (r : Regs) : Regs :=
  match c with
  | none => r
  | some x =>
    { r with steer := clampSteer cfg x.steer, speedL := clampSpeed cfg x.spdL, speedR := clampSpeed cfg x.spdR }

/-- The next state of a fired rule, if it has one (R175). -/
def applyNext (n : Option StateCode) (r : Regs) : Regs :=
  match n with
  | none => r
  | some c => { r with state := c }

/-- The counter reset of a fired rule: both counters or neither (R175). -/
def applyRst (rst : Bool) (r : Regs) : Regs := if rst then { r with ticks := 0, pulses := 0 } else r

/-- What a cycle writes: the actions of the fired rule (R166), nothing if none fires (R176). -/
def applyRule (cfg : Config) (rule : Option RomRule) (r : Regs) : Regs :=
  match rule with
  | none => r
  | some x => applyRst x.rst (applyNext x.next (applyCmd cfg x.cmd r))

/-- The registers after an accepted cycle in a state whose configuration is `c` (R166): the four inputs are sampled
together from the registers before it (R167). -/
def cycleRegs (cfg : Config) (c : StateCfg) (r : Regs) : Regs :=
  applyRule cfg (select cfg.crossBandMin c r.sense r.ticks r.pulses) r

/-- `FSM_ROM[STATE]` (R164); `none` only where `STATE` holds a reserved code (R29). -/
def stateCfg (s : State) : Option StateCfg := s.cfg.fsmRom[s.regs.state.toNat]?

/-- The state after an accepted cycle; its response is `CMDOUT` after the cycle's writes (R184). -/
def cycle (c : StateCfg) (s : State) : State := { s with regs := cycleRegs s.cfg c s.regs }

/-- `FSM.CYCLE` (R166, R183). A reserved code in `STATE` has no configuration and no effect in the spec: refused by name
(U10). DESIGN CHOICE, safe (log 6). -/
def execFsmCycle (s : State) : Result :=
  if calActive s then reject .notReady s
  else
    match stateCfg s with
    | none => .refused .reservedStateCode
    | some c => respond (cmdOut (cycle c s)) (cycle c s)

/-- `SENSE.LD m` (R180). -/
def execSenseLd (m : Byte) (s : State) : Result := respond 0 (setSense s m)

end Sys2Proof.Machine
end

