-- ==== Sys2Proof/Machine/Pid.lean ====
section
/-! DEFINITION. The discrete PID controller: `PID.INIT` (R132), `PID.STEP` (R133 to R140, R146) and `PID.RSTI` (R141). -/

namespace Sys2Proof.Machine

/-- The context that `PID.INIT` writes (R132): the gains, the two bounds they give, and everything else cleared. -/
def pidInitCtx (cfg : Config) (p i d : Half) : PidCtx :=
  { pFactor := p
    iFactor := i
    dFactor := d
    maxError := BitVec.ofInt 16 (tdiv int16Max (signedOf p + 1))
    maxSumError := BitVec.ofInt 32 (tdiv cfg.maxITerm (signedOf i + 1))
    sumError := 0
    lastPv := 0
    out := 0
    valid := true }

/-- Step 1, the error, exact (R134). -/
def pidError (sp pv : Half) : Int := signedOf sp - signedOf pv

/-- Step 2, the proportional term with its strict clamp tests (R135). -/
def pidP (c : PidCtx) (err : Int) : Int :=
  if err > c.maxError.toInt then int16Max
  else if err < -c.maxError.toInt then -int16Max
  else c.pFactor.toInt * err

/-- Step 3, the new sum: the tentative sum, or the bound it exceeds (R136). -/
def pidSum (c : PidCtx) (err : Int) : Int :=
  let tmp := c.sumError.toInt + err
  if tmp > c.maxSumError.toInt then c.maxSumError.toInt
  else if tmp < -c.maxSumError.toInt then -c.maxSumError.toInt
  else tmp

/-- Step 3, the integral term: on the clamp branches exactly `±MAX_I_TERM` whatever the gain (R136, R146), otherwise the
gain times the sum just committed (R136, C9). -/
def pidI (cfg : Config) (c : PidCtx) (err : Int) : Int :=
  let tmp := c.sumError.toInt + err
  if tmp > c.maxSumError.toInt then cfg.maxITerm
  else if tmp < -c.maxSumError.toInt then -cfg.maxITerm
  else c.iFactor.toInt * tmp

/-- Step 4, the derivative term, not clamped (R137). -/
def pidD (c : PidCtx) (pv : Half) : Int := c.dFactor.toInt * (c.lastPv.toInt - signedOf pv)

/-- Step 5: the exact sum, scaled and then clamped (R138, R139). -/
def pidOut (cfg : Config) (c : PidCtx) (sp pv : Half) : Int :=
  let err := pidError sp pv
  clamp (tdiv (pidP c err + pidI cfg c err + pidD c pv) cfg.scalingFactor) (-int16Max) int16Max

/-- The context after `PID.STEP`: all three terms are taken from the context before it, then `SUM_ERROR`, `LAST_PV` and
`OUT` are written together (R140). -/
def pidStepCtx (cfg : Config) (c : PidCtx) (sp pv : Half) : PidCtx :=
  { c with
    sumError := BitVec.ofInt 32 (pidSum c (pidError sp pv))
    lastPv := pv
    out := BitVec.ofInt 16 (pidOut cfg c sp pv) }

/-- `PID.INIT k, p, i, d` (R132). -/
def execPidInit (k : Byte) (p i d : Half) (s : State) : Result :=
  if !instanceOk s.cfg k then reject .badIndex s
  else if !(gainOk p && gainOk i && gainOk d) then reject .badOperand s
  else respond 0 (setPid s (indexOf k) (pidInitCtx s.cfg p i d))

/-- `PID.STEP k, setpoint, processValue` (R133). -/
def execPidStep (k : Byte) (sp pv : Half) (s : State) : Result :=
  if !instanceOk s.cfg k then reject .badIndex s
  else if !valid s (indexOf k) then reject .notReady s
  else
    respond (BitVec.ofInt 32 (pidOut s.cfg (pidCtx s (indexOf k)) sp pv))
      (setPid s (indexOf k) (pidStepCtx s.cfg (pidCtx s (indexOf k)) sp pv))

/-- `PID.RSTI k` (R141). -/
def execPidRsti (k : Byte) (s : State) : Result :=
  if !instanceOk s.cfg k then reject .badIndex s
  else if !valid s (indexOf k) then reject .notReady s
  else respond 0 (setPid s (indexOf k) { pidCtx s (indexOf k) with sumError := 0 })

end Sys2Proof.Machine
end

