-- ==== Sys2Proof/Machine/Reset.lean ====
section
/-! DEFINITION. `RESET` (R290): every register takes the value of R38. The parameters and everything outside the block
stay (R292), and no response is produced. -/

namespace Sys2Proof.Machine

/-- `RESET` (R290, R291, R292). -/
def execReset (s : State) : Result := .next { s with regs := Regs.reset s.cfg.nPid }

end Sys2Proof.Machine
end

