-- ==== Sys2Proof/Machine/Dispatch.lean ====
section
/-! DEFINITION. One arm for each operation, each a direct call of its meaning. -/

namespace Sys2Proof.Machine

def exec (i : Instr) (s : State) : Host.Outcome State Fault Refusal :=
  match i with
  | .nop => Sys2Proof.Machine.execNop s
  | .rd addr => Sys2Proof.Machine.execRd addr s
  | .pidInit k gp gi gd => Sys2Proof.Machine.execPidInit k gp gi gd s
  | .pidStep k sp pv => Sys2Proof.Machine.execPidStep k sp pv s
  | .pidRsti k => Sys2Proof.Machine.execPidRsti k s
  | .fsmCycle => Sys2Proof.Machine.execFsmCycle s
  | .senseLd m => Sys2Proof.Machine.execSenseLd m s
  | .clsSample n raw => Sys2Proof.Machine.execClsSample n raw s
  | .clsClassify => Sys2Proof.Machine.execClsClassify s
  | .calBegin => Sys2Proof.Machine.execCalBegin s
  | .calUpdate => Sys2Proof.Machine.execCalUpdate s
  | .calEnd => Sys2Proof.Machine.execCalEnd s
  | .calLoad n lo hi => Sys2Proof.Machine.execCalLoad n lo hi s
  | .evTick => Sys2Proof.Machine.execEvTick s
  | .evEnc => Sys2Proof.Machine.execEvEnc s
  | .evBoth => Sys2Proof.Machine.execEvBoth s
  | .reset => Sys2Proof.Machine.execReset s

end Sys2Proof.Machine
end

