-- ==== Sys2Proof/Decode.lean ====
section
/-! DEFINITION. The decoder and, after it, the encoder. A request on a port is read as an operation or rejected by name:
the 64-bit command word by R81, R86 and R88, the event port by R83, the reset line by R84. The match and mask table of
R87 stands beside it. -/

namespace Sys2Proof

/-- Why a request is no operation. -/
inductive DecodeReject
  /-- A command word whose `op` is none of the 13 values of R86 (R88). -/
  | reservedOpcode
  /-- A command word with an assigned `op` and a non-zero bit in a field that must be zero (R88). -/
  | mustBeZero
  /-- `EV = 0b00` (R83). -/
  | noEvent
  /-- `RST = 0` (R84). -/
  | noReset
  deriving DecidableEq, Repr

/-- The 13 opcodes (R86). -/
inductive Opcode
  | nop
  | rd
  | pidInit
  | pidStep
  | pidRsti
  | fsmCycle
  | senseLd
  | clsSample
  | clsClassify
  | calBegin
  | calUpdate
  | calEnd
  | calLoad
  deriving DecidableEq, Repr

/-- All 13 of them. -/
def Opcode.all : List Opcode :=
  [.nop, .rd, .pidInit, .pidStep, .pidRsti, .fsmCycle, .senseLd, .clsSample, .clsClassify, .calBegin, .calUpdate,
   .calEnd, .calLoad]

/-- The `op` column of R86. -/
def Opcode.code : Opcode → Byte
  | .nop => 0x00
  | .rd => 0x01
  | .pidInit => 0x10
  | .pidStep => 0x11
  | .pidRsti => 0x12
  | .fsmCycle => 0x20
  | .senseLd => 0x21
  | .clsSample => 0x30
  | .clsClassify => 0x31
  | .calBegin => 0x32
  | .calUpdate => 0x33
  | .calEnd => 0x34
  | .calLoad => 0x35

/-- The opcode of an `op` field, `none` for the 243 reserved values (R88). -/
def Opcode.ofByte (v : Byte) : Option Opcode := Opcode.all.find? (fun o => o.code == v)

/-- The mask column of R87. -/
def Opcode.mask : Opcode → CmdWord
  | .nop => 0xFFFFFFFFFFFFFFFF
  | .rd => 0xFF00FFFFFFFFFFFF
  | .pidInit => 0xFF00000000000000
  | .pidStep => 0xFF0000000000FFFF
  | .pidRsti => 0xFF00FFFFFFFFFFFF
  | .fsmCycle => 0xFFFFFFFFFFFFFFFF
  | .senseLd => 0xFFFFFFFFFFFFFF00
  | .clsSample => 0xFF00FFFFFFFF0000
  | .clsClassify => 0xFFFFFFFFFFFFFFFF
  | .calBegin => 0xFFFFFFFFFFFFFFFF
  | .calUpdate => 0xFFFFFFFFFFFFFFFF
  | .calEnd => 0xFFFFFFFFFFFFFFFF
  | .calLoad => 0xFF0000000000FFFF

/-- The match column of R87. -/
def Opcode.pattern : Opcode → CmdWord
  | .nop => 0x0000000000000000
  | .rd => 0x0100000000000000
  | .pidInit => 0x1000000000000000
  | .pidStep => 0x1100000000000000
  | .pidRsti => 0x1200000000000000
  | .fsmCycle => 0x2000000000000000
  | .senseLd => 0x2100000000000000
  | .clsSample => 0x3000000000000000
  | .clsClassify => 0x3100000000000000
  | .calBegin => 0x3200000000000000
  | .calUpdate => 0x3300000000000000
  | .calEnd => 0x3400000000000000
  | .calLoad => 0x3500000000000000

/-- Field `op` of a command word, `[63:56]` (R81). -/
def opField (w : CmdWord) : Byte := w.extractLsb' 56 8

/-- Field `k`, `[55:48]` (R81). -/
def kField (w : CmdWord) : Byte := w.extractLsb' 48 8

/-- Field `a`, `[47:32]` (R81). -/
def aField (w : CmdWord) : Half := w.extractLsb' 32 16

/-- Field `b`, `[31:16]` (R81). -/
def bField (w : CmdWord) : Half := w.extractLsb' 16 16

/-- Field `c`, `[15:0]` (R81). -/
def cField (w : CmdWord) : Half := w.extractLsb' 0 16

/-- `c[15:8]`, which `SENSE.LD` requires to be zero (R85, R180). -/
def cHigh (w : CmdWord) : Byte := w.extractLsb' 8 8

/-- `c[7:0]`, the bitmask operand of `SENSE.LD` (R85). -/
def cLow (w : CmdWord) : Byte := w.extractLsb' 0 8

/-- The MBZ column of R86: every field the row lists as must-be-zero is zero. -/
def Opcode.mbzOk (w : CmdWord) : Opcode → Bool
  | .nop => kField w == 0 && aField w == 0 && bField w == 0 && cField w == 0
  | .rd => aField w == 0 && bField w == 0 && cField w == 0
  | .pidInit => true
  | .pidStep => cField w == 0
  | .pidRsti => aField w == 0 && bField w == 0 && cField w == 0
  | .fsmCycle => kField w == 0 && aField w == 0 && bField w == 0 && cField w == 0
  | .senseLd => kField w == 0 && aField w == 0 && bField w == 0 && cHigh w == 0
  | .clsSample => aField w == 0 && bField w == 0
  | .clsClassify => kField w == 0 && aField w == 0 && bField w == 0 && cField w == 0
  | .calBegin => kField w == 0 && aField w == 0 && bField w == 0 && cField w == 0
  | .calUpdate => kField w == 0 && aField w == 0 && bField w == 0 && cField w == 0
  | .calEnd => kField w == 0 && aField w == 0 && bField w == 0 && cField w == 0
  | .calLoad => cField w == 0

/-- The operand columns of R86: the instruction that a word of this opcode stands for. -/
def Opcode.assemble (w : CmdWord) : Opcode → Instr
  | .nop => .nop
  | .rd => .rd (kField w)
  | .pidInit => .pidInit (kField w) (aField w) (bField w) (cField w)
  | .pidStep => .pidStep (kField w) (aField w) (bField w)
  | .pidRsti => .pidRsti (kField w)
  | .fsmCycle => .fsmCycle
  | .senseLd => .senseLd (cLow w)
  | .clsSample => .clsSample (kField w) (cField w)
  | .clsClassify => .clsClassify
  | .calBegin => .calBegin
  | .calUpdate => .calUpdate
  | .calEnd => .calEnd
  | .calLoad => .calLoad (kField w) (aField w) (bField w)

/-- A command word as an instruction; every word that is none is rejected (R87, R88, R89). -/
def decodeCommand (w : CmdWord) : Except DecodeReject Instr :=
  match Opcode.ofByte (opField w) with
  | none => .error .reservedOpcode
  | some o => if o.mbzOk w then .ok (o.assemble w) else .error .mustBeZero

/-- A value of the event port as an event (R83). -/
def decodeEvent (ev : BitVec 2) : Except DecodeReject Instr :=
  if ev = 0b01 then .ok .evTick
  else if ev = 0b10 then .ok .evEnc
  else if ev = 0b11 then .ok .evBoth
  else .error .noEvent

/-- A value of the reset line as an operation (R84). -/
def decodeReset (rst : BitVec 1) : Except DecodeReject Instr :=
  if rst = 1 then .ok .reset else .error .noReset

/-- A request on any port as an operation. -/
def decode : Request → Except DecodeReject Instr
  | .command w => decodeCommand w
  | .event ev => decodeEvent ev
  | .resetLine rst => decodeReset rst

/-- The row of R86 that an instruction belongs to; an event and the reset are no command (R86). -/
def Instr.opcode : Instr → Option Opcode
  | .nop => some .nop
  | .rd _ => some .rd
  | .pidInit _ _ _ _ => some .pidInit
  | .pidStep _ _ _ => some .pidStep
  | .pidRsti _ => some .pidRsti
  | .fsmCycle => some .fsmCycle
  | .senseLd _ => some .senseLd
  | .clsSample _ _ => some .clsSample
  | .clsClassify => some .clsClassify
  | .calBegin => some .calBegin
  | .calUpdate => some .calUpdate
  | .calEnd => some .calEnd
  | .calLoad _ _ _ => some .calLoad
  | .evTick => none
  | .evEnc => none
  | .evBoth => none
  | .reset => none

/-! ### The encoder -/

/-- `CMD = {op, k, a, b, c}` (R81). -/
def commandWord (op k : Byte) (a b c : Half) : CmdWord := op ++ k ++ a ++ b ++ c

/-- A bitmask operand in the `c` field: `c[15:8]` zero, `c[7:0] = m` (R85). -/
def maskField (m : Byte) : Half := (0 : Byte) ++ m

/-- The request that stands for an instruction (R91 for commands, R83 for events, R84 for reset). -/
def encode : Instr → Request
  | .nop => .command (commandWord 0x00 0 0 0 0)
  | .rd addr => .command (commandWord 0x01 addr 0 0 0)
  | .pidInit k p i d => .command (commandWord 0x10 k p i d)
  | .pidStep k sp pv => .command (commandWord 0x11 k sp pv 0)
  | .pidRsti k => .command (commandWord 0x12 k 0 0 0)
  | .fsmCycle => .command (commandWord 0x20 0 0 0 0)
  | .senseLd m => .command (commandWord 0x21 0 0 0 (maskField m))
  | .clsSample i raw => .command (commandWord 0x30 i 0 0 raw)
  | .clsClassify => .command (commandWord 0x31 0 0 0 0)
  | .calBegin => .command (commandWord 0x32 0 0 0 0)
  | .calUpdate => .command (commandWord 0x33 0 0 0 0)
  | .calEnd => .command (commandWord 0x34 0 0 0 0)
  | .calLoad i lo hi => .command (commandWord 0x35 i lo hi 0)
  | .evTick => .event 0b01
  | .evEnc => .event 0b10
  | .evBoth => .event 0b11
  | .reset => .resetLine 1

/-! ### The opcode table's words -/

/-- The request that `nbits` bits `w` of a row of `spec/opcode_table.json` stand for (log 8: DESIGN CHOICE). The table has rows of
three formats: 64-bit command words, 2-bit values of the event port and a 1-bit value of the reset line. `none` where
`w` does not fit its port. -/
def tableRequest (nbits w : Nat) : Option Request :=
  if nbits ≤ 1 then (if w < 2 ^ 1 then some (.resetLine (BitVec.ofNat 1 w)) else none)
  else if nbits ≤ 8 then (if w < 2 ^ 2 then some (.event (BitVec.ofNat 2 w)) else none)
  else if w < 2 ^ 64 then some (.command (BitVec.ofNat 64 w)) else none

/-- The instruction that the decoder reads from a row's bits. -/
def decodeTableWord (nbits w : Nat) : Option Instr :=
  match tableRequest nbits w with
  | none => none
  | some r =>
    match decode r with
    | .ok i => some i
    | .error _ => none

end Sys2Proof
end

