-- ==== Sys2Proof/Machine/Ports.lean ====
section
/-! DEFINITION. The input ports: what one instant requests (R80 to R84), which of several simultaneous requests is served
first (R69), and the fetch of the next operation from the host's stream. The block fetches nothing itself (R22, R60):
what stands here is the order in which the operations it receives are performed (R66, R70). -/

namespace Sys2Proof.Machine

/-- The instant at which one request alone is made. -/
def present : Request → Presentation
  | .command w => { cmd := some w, ev := 0, rst := 0 }
  | .event e => { cmd := none, ev := e, rst := 0 }
  | .resetLine r => { cmd := none, ev := 0, rst := r }

/-- The command request of an instant, if there is one. -/
def commandRequests (p : Presentation) : List Request :=
  match p.cmd with
  | none => []
  | some w => [.command w]

/-- The reset request of an instant: `RST = 0` requests nothing (R84). -/
def resetRequests (p : Presentation) : List Request := if p.rst = 1 then [.resetLine 1] else []

/-- The event requests of an instant (R83; log 12: DEDUCED, safe). `EV = 0b11` alone is the one operation `EV.BOTH`
(R233); beside a command or a reset, the tick and the edge are "ordered independently" (R233) and so are two requests. -/
def eventRequests (p : Presentation) : List Request :=
  if p.ev = 0b00 then []
  else if p.ev = 0b01 then [.event 0b01]
  else if p.ev = 0b10 then [.event 0b10]
  else if p.cmd.isNone && p.rst == 0 then [.event 0b11]
  else [.event 0b01, .event 0b10]

/-- Every request of an instant. -/
def requests (p : Presentation) : List Request := commandRequests p ++ eventRequests p ++ resetRequests p

/-- The instant with one request taken out of it: each request is performed once (R267). -/
def withdraw (p : Presentation) : Request → Presentation
  | .command _ => { p with cmd := none }
  | .event e => { p with ev := p.ev &&& ~~~e }
  | .resetLine _ => { p with rst := 0 }

/-- The stream with what is left of the instant at its front, which is dropped once it requests nothing more. -/
def remaining (p : Presentation) (ps : List Presentation) : List Presentation :=
  if (requests p).isEmpty then ps else p :: ps

/-- FREE VALUE (R69; log 3, safe): which of several simultaneous requests is performed first. -/
def firstServed (n : Nat) (r : Request) (rs : List Request) : Request :=
  (r :: rs).getD (Config.freeOrder n % (rs.length + 1)) r

/-- What a step finds at the ports. -/
inductive Fetched
  /-- No operation is requested. -/
  | idle (s : State)
  /-- This operation, to be performed in this state. -/
  | operation (i : Instr) (s : State)
  /-- A command word that is no row of R87. -/
  | illegal (s : State)
  deriving DecidableEq, Repr

/-- One request, decoded. -/
def serve (r : Request) (s : State) : Fetched :=
  match decode r with
  | .ok i => .operation i s
  | .error .reservedOpcode => .illegal s
  | .error .mustBeZero => .illegal s
  | .error .noEvent => .idle s
  | .error .noReset => .idle s

/-- The next operation: from the instant at the front of the stream, the only request it makes or one of several. The
response of the step before is no longer on `RESP` (R36; log 4: DESIGN CHOICE, safe). -/
def fetch (s : State) : Fetched :=
  match s.pending with
  | [] => .idle { s with resp := none }
  | p :: ps =>
    match requests p with
    | [] => .idle { s with pending := ps, resp := none }
    | [r] => serve r { s with pending := ps, resp := none }
    | r :: r' :: rs =>
      let x := firstServed s.choices r (r' :: rs)
      serve x { s with pending := remaining (withdraw p x) ps, choices := s.choices + 1, resp := none }

end Sys2Proof.Machine
end

