-- ==== Sys2Proof/Machine/Step.lean ====
section
/-! DEFINITION. One step of the machine: at most one operation, atomically (R13, R66), without a
duration (log 13: DEDUCED, safe). -/

namespace Sys2Proof.Machine

/-- One step: the next operation of the host's stream is performed; with nothing requested the block is idle (R276; log
14: DEDUCED, safe); a command word that is no row of R87 is rejected (R88). A configuration that breaks R165 or a
constraint of R7 is refused (U11; log 7: DEDUCED, safe). -/
def step (s : State) : Host.Outcome State Fault Refusal :=
  if s.cfg.wf then
    match fetch s with
    | .idle s' => .next s'
    | .operation i s' => exec i s'
    | .illegal s' => rejectIllegal s'
  else .refused .illFormedConfiguration

/-- The state in which the host requests, at the next instant, the operation that `nbits` bits `w` of a row of the
opcode table stand for (log 2; log 8: DESIGN CHOICE, unsafe for a `RESET` word of 8 bits). -/
def State.withFetchWord (s : State) (nbits w : Nat) : State :=
  match tableRequest nbits w with
  | none => s
  | some r => { s with pending := present r :: s.pending }

end Sys2Proof.Machine
end

