-- ==== Sys2Proof/Safety.lean ====
section
/-! DEFINITION. What statements call a good state: the ranges and relations that the spec says hold after reset and any
sequence of operations (R25, R29, R33, R181), and the sequences of operations they speak of. -/

namespace Sys2Proof.Machine

/-- R24 and R25 for a valid PID context: the gains are not negative, the two bounds are those of the gains, the sum is
within its bound and the output within `±INT16_MAX`. -/
abbrev PidCtx.bounded (cfg : Config) (c : PidCtx) : Prop :=
  0 ≤ c.pFactor.toInt ∧ 0 ≤ c.iFactor.toInt ∧ 0 ≤ c.dFactor.toInt ∧
  c.maxError.toInt = tdiv int16Max (c.pFactor.toInt + 1) ∧
  c.maxSumError.toInt = tdiv cfg.maxITerm (c.iFactor.toInt + 1) ∧
  -c.maxSumError.toInt ≤ c.sumError.toInt ∧ c.sumError.toInt ≤ c.maxSumError.toInt ∧
  -int16Max ≤ c.out.toInt ∧ c.out.toInt ≤ int16Max

/-- A PID context is as reset left it until `PID.INIT` (R23, R38), and then as R25 says. -/
abbrev PidCtx.wf (cfg : Config) (c : PidCtx) : Prop :=
  (c.valid = false → c = PidCtx.reset) ∧ (c.valid = true → PidCtx.bounded cfg c)

/-- R33: the four registers of a sensor hold values of `RAW_W` bits. -/
abbrev Sensor.wf (cfg : Config) (x : Sensor) : Prop :=
  x.raw.toNat < 2 ^ cfg.rawW ∧ x.cmin.toNat < 2 ^ cfg.rawW ∧ x.cmax.toNat < 2 ^ cfg.rawW ∧ x.thr.toNat < 2 ^ cfg.rawW

/-- The registers are as R20, R24, R25, R29, R30, R33 and R181 say they are after every operation. -/
abbrev Regs.wf (cfg : Config) (r : Regs) : Prop :=
  r.pid.length = cfg.nPid ∧ (∀ c ∈ r.pid, PidCtx.wf cfg c) ∧
  r.state.toNat < nStates ∧
  -(cfg.steerMax : Int) ≤ r.steer.toInt ∧ r.steer.toInt ≤ cfg.steerMax ∧
  -(cfg.speedMax : Int) ≤ r.speedL.toInt ∧ r.speedL.toInt ≤ cfg.speedMax ∧
  -(cfg.speedMax : Int) ≤ r.speedR.toInt ∧ r.speedR.toInt ≤ cfg.speedMax ∧
  r.sensors.length = nSens ∧ (∀ x ∈ r.sensors, Sensor.wf cfg x)

/-- The invariant of the machine: a configuration that the model accepts, and registers as the spec says they are. -/
abbrev State.Inv (s : State) : Prop := s.cfg.wf = true ∧ Regs.wf s.cfg s.regs

/-- The state with a response on `RESP` and everything else as it was: what a command leaves that writes no register
(R82, R262). -/
abbrev answer (st : Status) (v : Word) (s : State) : State := { s with resp := some { status := st, value := v } }

/-- R90 (4): the readiness condition of an operation, `VALID` or `CAL_ACTIVE` (R263). -/
def ready (s : State) : Instr → Bool
  | .pidStep k _ _ => valid s (indexOf k)
  | .pidRsti k => valid s (indexOf k)
  | .fsmCycle | .clsClassify | .calBegin | .calLoad _ _ _ => !calActive s
  | .calUpdate | .calEnd => calActive s
  | .nop | .rd _ | .pidInit _ _ _ _ | .senseLd _ | .clsSample _ _ | .evTick | .evEnc | .evBoth | .reset => true

/-- The guard of a `thr` entry on its counter, strict and unsigned (R171). -/
def overThreshold (t e : Word) (x : ThrEntry) : Bool :=
  match x.counter with
  | .ticks => decide (x.threshold.toNat < t.toNat)
  | .pulses => decide (x.threshold.toNat < e.toNat)

/-- The guards of a state's configuration with the rules they guard, in the order in which `Select` tries them: the
cross rule, the lost rule, the `thr` list, the `tab` list (R166, R170, R171, R172). -/
def guards (band : Nat) (c : StateCfg) (m : Bitmask) (t e : Word) : List (Bool × RomRule) :=
  c.cross.toList.map (fun r => (cross band m, r)) ++
  c.lost.toList.map (fun r => (m == 0, r)) ++
  c.thr.map (fun x => (overThreshold t e x, x.rule)) ++
  c.tab.map (fun x => (m &&& x.mask == x.pattern, x.rule))

/-- The first rule of a state's configuration whose guard holds (R166). -/
def firstGuard (band : Nat) (c : StateCfg) (m : Bitmask) (t e : Word) : Option RomRule :=
  ((guards band c m t e).find? (fun g => g.1)).map (fun g => g.2)

/-- An operation that sets both counters to 0: `RESET`, or an `FSM.CYCLE` whose fired rule has `rst = 1` (R235). -/
def clearsCounters (i : Instr) (s : State) : Prop :=
  i = .reset ∨
  (i = .fsmCycle ∧ calActive s = false ∧ ∃ c r, stateCfg s = some c ∧
    select s.cfg.crossBandMin c s.regs.sense s.regs.ticks s.regs.pulses = some r ∧ r.rst = true)

/-- No operation of the list clears the counters when the list is performed from `s`. -/
def noClear : List Instr → State → Prop
  | [], _ => True
  | i :: is, s => ¬ clearsCounters i s ∧ ∀ t, exec i s = .next t → noClear is t

/-- What a request does in a state: the operation it encodes, `ILLEGAL_OP` for a command word that encodes none (R88),
nothing for `EV = 0b00` and `RST = 0` (R83, R84). -/
def perform (r : Request) (s : State) : Result :=
  match decode r with
  | .ok i => exec i s
  | .error .reservedOpcode => rejectIllegal s
  | .error .mustBeZero => rejectIllegal s
  | .error .noEvent => .next s
  | .error .noReset => .next s

/-- R88 for one row of R86: a command word of the row's opcode that is not the row's (a must-be-zero bit is 1) is
rejected with `ILLEGAL_OP` and value 0 and writes nothing. -/
def mbzRejected (o : Opcode) : Prop :=
  ∀ (s : State) (w : CmdWord), opField w = o.code → w &&& o.mask ≠ o.pattern →
    perform (.command w) s = .next (answer .illegalOp 0 s)

/-- Instructions performed one after another, stopping at a refusal. -/
def execAll : List Instr → State → Result
  | [], s => .next s
  | i :: is, s =>
    match exec i s with
    | .next t => execAll is t
    | .fault f => .fault f
    | .refused r => .refused r

/-- Requests performed one after another, stopping at a refusal. -/
def performAll : List Request → State → Result
  | [], s => .next s
  | r :: rs, s =>
    match perform r s with
    | .next t => performAll rs t
    | .fault f => .fault f
    | .refused e => .refused e

/-- The requests of an instant with the two event lines apart: `EV = 0b11` is "exactly one `EV.TICK` and one `EV.ENC`"
(R233). -/
def lineRequests (p : Presentation) : List Request :=
  commandRequests p ++ (if p.ev.getLsbD 0 then [.event 0b01] else []) ++
  (if p.ev.getLsbD 1 then [.event 0b10] else []) ++ resetRequests p

end Sys2Proof.Machine
end

