-- ==== Sys2Proof/Certificates/Slice0/Obligations.lean ====
section
/-! DEFINITION. The statements for the provers. Each docstring names the rule of `spec/` it formalises, or says that it is
the model's own. Statements about a configuration hold for every well-formed one, `REF_ROM` among them (R221). None rests
on a row of `REF_ROM` or on a default of R7, but for `ResetMeetsInvariant`, which says that those of `State.reset` are
well formed (log 1); none rests on a value of `Config.freeOrder`. -/

open Sys2Proof Sys2Proof.Machine

/-! ### Encoding -/

/-- R93: the worked encodings, each read as the command it is listed for. -/
def Obligations.WorkedEncodingsDecode : Prop :=
  decodeCommand 0x0000000000000000 = .ok .nop ∧
  decodeCommand 0x0105000000000000 = .ok (.rd 0x05) ∧
  decodeCommand 0x1000000A00000000 = .ok (.pidInit 0 10 0 0) ∧
  decodeCommand 0x1001010000100200 = .ok (.pidInit 1 256 16 512) ∧
  decodeCommand 0x110000000BA30000 = .ok (.pidStep 0 0 2979) ∧
  decodeCommand 0x110180007FFF0000 = .ok (.pidStep 1 (BitVec.ofInt 16 (-32768)) 32767) ∧
  decodeCommand 0x11000064FFFF0000 = .ok (.pidStep 0 100 (BitVec.ofInt 16 (-1))) ∧
  decodeCommand 0x1201000000000000 = .ok (.pidRsti 1) ∧
  decodeCommand 0x2000000000000000 = .ok .fsmCycle ∧
  decodeCommand 0x2100000000000018 = .ok (.senseLd 0b00011000) ∧
  decodeCommand 0x30030000000000C7 = .ok (.clsSample 3 199) ∧
  decodeCommand 0x3100000000000000 = .ok .clsClassify ∧
  decodeCommand 0x3200000000000000 = .ok .calBegin ∧
  decodeCommand 0x3300000000000000 = .ok .calUpdate ∧
  decodeCommand 0x3400000000000000 = .ok .calEnd ∧
  decodeCommand 0x35000064012C0000 = .ok (.calLoad 0 100 300)

/-- R83 and R84: the values of the event port and of the reset line. -/
def Obligations.EventAndResetLinesDecode : Prop :=
  decode (.event 0b01) = .ok .evTick ∧ decode (.event 0b10) = .ok .evEnc ∧ decode (.event 0b11) = .ok .evBoth ∧
  decode (.event 0b00) = .error .noEvent ∧ decode (.resetLine 1) = .ok .reset ∧
  decode (.resetLine 0) = .error .noReset

/-- Decode and encode agree (R81, R85, R86, R91, R83, R84): every instruction, with every operand at every value its
field admits, is what its encoding decodes to. -/
def Obligations.DecodeEncodeAgree : Prop :=
  ∀ i : Instr, decode (encode i) = .ok i

/-- Encode and decode agree (R81, R86): a request that is read as an operation is the encoding of that operation, so no
two requests are read as the same one and no bit of a word is ignored. -/
def Obligations.EncodeDecodeAgree : Prop :=
  ∀ (r : Request) (i : Instr), decode r = .ok i → encode i = r

/-- R87: a word is the operation of a row exactly when `(w & mask) == match`; no two rows match the same word; a word
that matches no row is no operation. -/
def Obligations.CommandWordsMatchTable : Prop :=
  (∀ (w : CmdWord) (o : Opcode),
    (∃ i, decodeCommand w = .ok i ∧ i.opcode = some o) ↔ w &&& o.mask = o.pattern) ∧
  (∀ (w : CmdWord) (o o' : Opcode), w &&& o.mask = o.pattern → w &&& o'.mask = o'.pattern → o = o') ∧
  (∀ w : CmdWord, (∀ o : Opcode, w &&& o.mask ≠ o.pattern) → ∃ e, decodeCommand w = .error e)

/-- R88: a word with a reserved opcode, or with an assigned one and a non-zero must-be-zero bit, is rejected with
`ILLEGAL_OP` and value 0 and changes nothing else; which opcodes are reserved; the all-zero and the all-ones word. -/
def Obligations.IllegalWordsRejected : Prop :=
  (∀ (s : State) (w : CmdWord), Opcode.ofByte (opField w) = none →
    perform (.command w) s = .next (answer .illegalOp 0 s)) ∧
  (∀ (s : State) (w : CmdWord) (o : Opcode), Opcode.ofByte (opField w) = some o →
    w &&& o.mask &&& 0x00FFFFFFFFFFFFFF ≠ 0 → perform (.command w) s = .next (answer .illegalOp 0 s)) ∧
  (∀ v : Byte, Opcode.ofByte v = none ↔
    (0x02 ≤ v ∧ v ≤ 0x0F) ∨ (0x13 ≤ v ∧ v ≤ 0x1F) ∨ (0x22 ≤ v ∧ v ≤ 0x2F) ∨ 0x36 ≤ v) ∧
  ((List.range 256).countP (fun n => (Opcode.ofByte (BitVec.ofNat 8 n)).isNone) = 243) ∧
  (∀ s : State, perform (.command 0x0000000000000000) s = exec .nop s) ∧
  (∀ s : State, perform (.command 0xFFFFFFFFFFFFFFFF) s = .next (answer .illegalOp 0 s))

/-! ### Every command is answered -/

/-- R90: the check order, the same for every command. Each of the 2^64 command words gets a response whose status is that
of the first check it fails, in the order match, index, operands, readiness; `OK` if it fails none. -/
def Obligations.CheckOrderOfEveryCommand : Prop :=
  ∀ (s : State) (w : CmdWord), State.Inv s → ∃ t v, perform (.command w) s = .next t ∧
    t.resp = some { status :=
      (match decodeCommand w with
        | .error _ => Status.illegalOp
        | .ok i =>
          if i.indexOk s.cfg = false then .badIndex
          else if i.operandsOk s.cfg = false then .badOperand
          else if ready s i = false then .notReady
          else .ok), value := v }

/-- R262: a command that is not performed has value 0 and leaves everything but the response as it was; an event and a
reset are never rejected: they complete in every state, and put nothing on the response port. -/
def Obligations.RejectedCommandsWriteNothing : Prop :=
  (∀ (w : CmdWord) (s t : State) (st : Status) (v : Word), perform (.command w) s = .next t →
    t.resp = some { status := st, value := v } → st ≠ .ok → t = answer st 0 s) ∧
  (∀ (i : Instr) (s : State), i.isCommand = false → ∃ t, exec i s = .next t ∧ t.resp = s.resp)

/-- R13 and R82: every command word, legal or not, produces exactly one response; events and reset produce none. -/
def Obligations.OneResponsePerCommand : Prop :=
  (∀ (w : CmdWord) (s : State), State.Inv s → ∃ t p, perform (.command w) s = .next t ∧ t.resp = some p) ∧
  (∀ (ev : BitVec 2) (s : State), ∃ t, perform (.event ev) s = .next t ∧ t.resp = s.resp) ∧
  (∀ (rst : BitVec 1) (s : State), ∃ t, perform (.resetLine rst) s = .next t ∧ t.resp = s.resp)

/-- R264: the statuses that each legal command word can return. -/
def Obligations.StatusesEachCommandCanReturn : Prop :=
  ∀ (i : Instr) (s t : State) (p : Response), i.isCommand = true → exec i s = .next t → t.resp = some p →
    p.status ∈ (match i with
      | .nop | .senseLd _ => [Status.ok]
      | .rd _ => [.ok, .badIndex]
      | .pidInit _ _ _ _ => [.ok, .badIndex, .badOperand]
      | .pidStep _ _ _ | .pidRsti _ => [.ok, .badIndex, .notReady]
      | .clsSample _ _ => [.ok, .badIndex, .badOperand]
      | .fsmCycle | .clsClassify | .calBegin | .calUpdate | .calEnd => [.ok, .notReady]
      | .calLoad _ _ _ => [.ok, .badIndex, .badOperand, .notReady]
      | .evTick | .evEnc | .evBoth | .reset => [])

/-! ### Steps -/

/-- A step runs the decoded operation: when the instant at the front of the stream makes one request, the step is that
operation, performed with the request taken off the stream and no response on `RESP`; a word that decodes to none is
rejected (R13, R66, R88). What stands around `exec` is the model's (log 2, log 4). -/
def Obligations.StepRunsDecodedOperation : Prop :=
  (∀ (s : State) (p : Presentation) (ps : List Presentation) (r : Request) (i : Instr), s.cfg.wf = true →
    s.pending = p :: ps → requests p = [r] → decode r = .ok i →
    step s = exec i { s with pending := ps, resp := none }) ∧
  (∀ (s : State) (p : Presentation) (ps : List Presentation) (w : CmdWord) (e : DecodeReject), s.cfg.wf = true →
    s.pending = p :: ps → requests p = [.command w] → decodeCommand w = .error e →
    step s = .next (answer .illegalOp 0 { s with pending := ps, resp := none }))

/-- R69: of several requests made at one instant a step performs one, and the others stay requested. Which one is not
said. What stands around the request is the model's (log 2, log 3, log 4). -/
def Obligations.StepServesOneOfSimultaneousRequests : Prop :=
  ∀ (s : State) (p : Presentation) (ps : List Presentation), s.cfg.wf = true → s.pending = p :: ps →
    2 ≤ (requests p).length →
    ∃ r ∈ requests p, step s = perform r
      { s with pending := remaining (withdraw p r) ps, choices := s.choices + 1, resp := none }

/-- R66, R69, R267 and R290: requests made at one instant are performed one after another in some order, each exactly
once, and then the instant is over: the registers are those that the operations give in that order. That the instant is
then taken off the stream, which stands in `State.pending`, is the model's (log 2), and so is the number of steps this
takes, one for each request performed (log 3, log 12). -/
def Obligations.InstantIsPerformedInSomeOrder : Prop :=
  ∀ (s : State) (p : Presentation) (ps : List Presentation), State.Inv s → s.pending = p :: ps →
    ∃ (l : List Request) (n : Nat) (t u : State), l.Perm (lineRequests p) ∧
      Host.Core.run Sys2Proof.core n s = .next t ∧ t.pending = ps ∧ performAll l s = .next u ∧ t.regs = u.regs

/-- R66 and R70: requests made one at each instant are performed in the order in which they are made. The stream in
`State.pending`, and one step for each instant, are the model's (log 2). -/
def Obligations.StreamIsPerformedInOrder : Prop :=
  ∀ (s : State) (l : List Request) (ps : List Presentation), State.Inv s →
    (∀ r ∈ l, requests (present r) = [r]) → s.pending = l.map present ++ ps →
    ∃ t u, Host.Core.run Sys2Proof.core l.length s = .next t ∧ t.pending = ps ∧ performAll l s = .next u ∧
      t.regs = u.regs

/-- R276, R83 and R84: with nothing presented, and at an instant that presents no command, `EV = 0b00` and `RST = 0`, a
step changes no register. What it does to the model's own fields is the model's (log 2, log 4, log 14). -/
def Obligations.IdleStepChangesNoRegister : Prop :=
  (∀ s : State, s.cfg.wf = true → s.pending = [] → step s = .next { s with resp := none }) ∧
  (∀ (s : State) (ps : List Presentation), s.cfg.wf = true →
    s.pending = { cmd := none, ev := 0, rst := 0 } :: ps → step s = .next { s with pending := ps, resp := none })

/-- U11 and R165: a configuration that is not well formed is refused by every step (the model's name for it, log 7). -/
def Obligations.IllFormedConfigurationRefused : Prop :=
  ∀ s : State, s.cfg.wf = false → step s = .refused .illFormedConfiguration

/-- R165: which `FSM_ROM` the model accepts. -/
def Obligations.RomAcceptedAsSpecified : Prop :=
  ∀ rom : List StateCfg, romWf rom = true ↔
    rom.length = 19 ∧ ∀ c ∈ rom,
      (∀ r : RomRule, (c.cross = some r ∨ c.lost = some r ∨ (∃ x ∈ c.thr, x.rule = r) ∨ (∃ x ∈ c.tab, x.rule = r)) →
        (∀ n, r.next = some n → n.toNat < 19) ∧ (r.rst = true → ∃ n, r.next = some n)) ∧
      (∀ x ∈ c.tab, (∃ d, x.rule.cmd = some d) ∧ x.pattern &&& ~~~x.mask = 0)

/-! ### `NOP`, `RD` and the views -/

/-- R250: `NOP` gives `(OK, 0)` and leaves every register as it was; with a must-be-zero bit set the word is no `NOP`. -/
def Obligations.NopResponds : Prop :=
  mbzRejected .nop ∧ ∀ s : State, exec .nop s = .next (answer .ok 0 s)

/-- R62: the register read space, every address of it. -/
def Obligations.ReadSpaceGivesEveryRegister : Prop :=
  (∀ s : State,
    exec (.rd 0x00) s = .next (answer .ok (s.regs.state.setWidth 32) s) ∧
    exec (.rd 0x01) s = .next (answer .ok (s.regs.steer.signExtend 32) s) ∧
    exec (.rd 0x02) s = .next (answer .ok (s.regs.speedL.signExtend 32) s) ∧
    exec (.rd 0x03) s = .next (answer .ok (s.regs.speedR.signExtend 32) s) ∧
    exec (.rd 0x04) s = .next (answer .ok (s.regs.sense.setWidth 32) s) ∧
    exec (.rd 0x05) s = .next (answer .ok s.regs.ticks s) ∧
    exec (.rd 0x06) s = .next (answer .ok s.regs.pulses s) ∧
    exec (.rd 0x07) s = .next (answer .ok (status s) s) ∧
    exec (.rd 0x08) s = .next (answer .ok (cmdOut s) s)) ∧
  (∀ (s : State) (k : Nat) (c : PidCtx), s.cfg.wf = true → k < s.cfg.nPid → s.regs.pid[k]? = some c →
    exec (.rd (BitVec.ofNat 8 (0x10 + 8 * k + 0))) s = .next (answer .ok (c.pFactor.signExtend 32) s) ∧
    exec (.rd (BitVec.ofNat 8 (0x10 + 8 * k + 1))) s = .next (answer .ok (c.iFactor.signExtend 32) s) ∧
    exec (.rd (BitVec.ofNat 8 (0x10 + 8 * k + 2))) s = .next (answer .ok (c.dFactor.signExtend 32) s) ∧
    exec (.rd (BitVec.ofNat 8 (0x10 + 8 * k + 3))) s = .next (answer .ok (c.maxError.signExtend 32) s) ∧
    exec (.rd (BitVec.ofNat 8 (0x10 + 8 * k + 4))) s = .next (answer .ok c.maxSumError s) ∧
    exec (.rd (BitVec.ofNat 8 (0x10 + 8 * k + 5))) s = .next (answer .ok c.sumError s) ∧
    exec (.rd (BitVec.ofNat 8 (0x10 + 8 * k + 6))) s = .next (answer .ok (c.lastPv.signExtend 32) s) ∧
    exec (.rd (BitVec.ofNat 8 (0x10 + 8 * k + 7))) s = .next (answer .ok (c.out.signExtend 32) s)) ∧
  (∀ (s : State) (i : Nat) (x : Sensor), i < 8 → s.regs.sensors[i]? = some x →
    exec (.rd (BitVec.ofNat 8 (0x80 + i))) s = .next (answer .ok (x.raw.setWidth 32) s) ∧
    exec (.rd (BitVec.ofNat 8 (0x88 + i))) s = .next (answer .ok (x.cmin.setWidth 32) s) ∧
    exec (.rd (BitVec.ofNat 8 (0x90 + i))) s = .next (answer .ok (x.cmax.setWidth 32) s) ∧
    exec (.rd (BitVec.ofNat 8 (0x98 + i))) s = .next (answer .ok (x.thr.setWidth 32) s)) ∧
  (∀ (s : State) (addr : Byte), s.cfg.wf = true →
    (0x09 ≤ addr.toNat ∧ addr.toNat < 0x10) ∨ (0x10 + 8 * s.cfg.nPid ≤ addr.toNat ∧ addr.toNat < 0x80) ∨
      0xA0 ≤ addr.toNat →
    exec (.rd addr) s = .next (answer .badIndex 0 s))

/-- R65: `RD` has no side effect on any address, and two reads of one address with nothing between them return the same
value. -/
def Obligations.ReadsHaveNoSideEffect : Prop :=
  ∀ (s : State) (addr : Byte), ∃ p : Response,
    exec (.rd addr) s = .next { s with resp := some p } ∧
    exec (.rd addr) { s with resp := some p } = .next { s with resp := some p }

/-- R35: every bit of `STATUS`. -/
def Obligations.StatusViewBits : Prop :=
  ∀ s : State, State.Inv s →
    (status s).getLsbD 0 = s.regs.calActive ∧
    (∀ (k : Nat) (c : PidCtx), s.regs.pid[k]? = some c → (status s).getLsbD (8 + k) = c.valid) ∧
    (∀ j : Nat, j ≠ 0 → (j < 8 ∨ 8 + s.cfg.nPid ≤ j) → (status s).getLsbD j = false)

/-- R179: the fields of `CMDOUT`, and two worked values of the rule. -/
def Obligations.CmdOutFields : Prop :=
  (∀ s : State,
    (cmdOut s).extractLsb' 30 2 = 0 ∧ (cmdOut s).extractLsb' 25 5 = s.regs.state ∧
    (cmdOut s).extractLsb' 16 9 = s.regs.steer ∧ (cmdOut s).extractLsb' 8 8 = s.regs.speedL ∧
    (cmdOut s).extractLsb' 0 8 = s.regs.speedR) ∧
  (∀ s : State, s.regs.state = 2 → s.regs.steer.toInt = -85 → s.regs.speedL.toInt = 40 → s.regs.speedR.toInt = 100 →
    cmdOut s = 0x05AB2864) ∧
  (∀ s : State, s.regs.state = 16 → s.regs.steer.toInt = 10 → s.regs.speedL.toInt = -100 → s.regs.speedR.toInt = 90 →
    cmdOut s = 0x200A9C5A)

/-- R82 and R263: the 36-bit response word and the five status codes. -/
def Obligations.ResponseWordFields : Prop :=
  (∀ p : Response, (respWord p).extractLsb' 32 4 = statusCode p.status ∧ (respWord p).extractLsb' 0 32 = p.value) ∧
  statusCode .ok = 0 ∧ statusCode .illegalOp = 1 ∧ statusCode .badIndex = 2 ∧ statusCode .badOperand = 3 ∧
  statusCode .notReady = 4

/-! ### The PID controller -/

/-- R132: `PID.INIT`. -/
def Obligations.PidInitResult : Prop :=
  (∀ (s : State) (k : Byte) (p i d : Half), s.cfg.nPid ≤ k.toNat →
    exec (.pidInit k p i d) s = .next (answer .badIndex 0 s)) ∧
  (∀ (s : State) (k : Byte) (p i d : Half), k.toNat < s.cfg.nPid → (p.toInt < 0 ∨ i.toInt < 0 ∨ d.toInt < 0) →
    exec (.pidInit k p i d) s = .next (answer .badOperand 0 s)) ∧
  (∀ (s : State) (k : Byte) (p i d : Half), s.cfg.wf = true → k.toNat < s.cfg.nPid → 0 ≤ p.toInt → 0 ≤ i.toInt →
    0 ≤ d.toInt →
    ∃ c : PidCtx,
      exec (.pidInit k p i d) s =
        .next (answer .ok 0 { s with regs := { s.regs with pid := s.regs.pid.set k.toNat c } }) ∧
      c.pFactor = p ∧ c.iFactor = i ∧ c.dFactor = d ∧
      c.maxError.toInt = Int.tdiv 32767 (p.toInt + 1) ∧
      c.maxSumError.toInt = Int.tdiv s.cfg.maxITerm (i.toInt + 1) ∧
      c.sumError = 0 ∧ c.lastPv = 0 ∧ c.out = 0 ∧ c.valid = true)

/-- R133: `PID.STEP`, with every intermediate as the rule's pseudocode has it. -/
def Obligations.PidStepResult : Prop :=
  mbzRejected .pidStep ∧
  (∀ (s : State) (k : Byte) (sp pv : Half), s.cfg.nPid ≤ k.toNat →
    exec (.pidStep k sp pv) s = .next (answer .badIndex 0 s)) ∧
  (∀ (s : State) (k : Byte) (sp pv : Half) (c : PidCtx), k.toNat < s.cfg.nPid → s.regs.pid[k.toNat]? = some c →
    c.valid = false → exec (.pidStep k sp pv) s = .next (answer .notReady 0 s)) ∧
  (∀ (s : State) (k : Byte) (sp pv : Half) (c : PidCtx), State.Inv s → s.regs.pid[k.toNat]? = some c →
    c.valid = true →
    let err : Int := sp.toInt - pv.toInt
    let p : Int :=
      if err > c.maxError.toInt then 32767
      else if err < -c.maxError.toInt then -32767
      else c.pFactor.toInt * err
    let tmp : Int := c.sumError.toInt + err
    let i : Int :=
      if tmp > c.maxSumError.toInt then s.cfg.maxITerm
      else if tmp < -c.maxSumError.toInt then -s.cfg.maxITerm
      else c.iFactor.toInt * tmp
    let newsum : Int :=
      if tmp > c.maxSumError.toInt then c.maxSumError.toInt
      else if tmp < -c.maxSumError.toInt then -c.maxSumError.toInt
      else tmp
    let d : Int := c.dFactor.toInt * (c.lastPv.toInt - pv.toInt)
    let out : Int := max (-32767) (min 32767 (Int.tdiv (p + i + d) s.cfg.scalingFactor))
    ∃ (c' : PidCtx) (v : Word),
      exec (.pidStep k sp pv) s =
        .next (answer .ok v { s with regs := { s.regs with pid := s.regs.pid.set k.toNat c' } }) ∧
      v.toInt = out ∧ c'.sumError.toInt = newsum ∧ c'.lastPv = pv ∧ c'.out.toInt = out ∧
      c'.pFactor = c.pFactor ∧ c'.iFactor = c.iFactor ∧ c'.dFactor = c.dFactor ∧ c'.maxError = c.maxError ∧
      c'.maxSumError = c.maxSumError ∧ c'.valid = true)

/-- R141: `PID.RSTI` writes `SUM_ERROR` and nothing else. -/
def Obligations.PidRstiResult : Prop :=
  mbzRejected .pidRsti ∧
  (∀ (s : State) (k : Byte), s.cfg.nPid ≤ k.toNat → exec (.pidRsti k) s = .next (answer .badIndex 0 s)) ∧
  (∀ (s : State) (k : Byte) (c : PidCtx), k.toNat < s.cfg.nPid → s.regs.pid[k.toNat]? = some c → c.valid = false →
    exec (.pidRsti k) s = .next (answer .notReady 0 s)) ∧
  (∀ (s : State) (k : Byte) (c : PidCtx), k.toNat < s.cfg.nPid → s.regs.pid[k.toNat]? = some c → c.valid = true →
    exec (.pidRsti k) s = .next (answer .ok 0
      { s with regs := { s.regs with pid := s.regs.pid.set k.toNat { c with sumError := 0 } } }))

/-- R135 to R138 and R145: the ranges of the terms of a step on a context as R25 has it: no product, sum or accumulator
is clamped but where the algorithm names a clamp. -/
def Obligations.PidTermsWithinBounds : Prop :=
  ∀ (cfg : Config) (c : PidCtx) (sp pv : Half), cfg.wf = true → PidCtx.bounded cfg c →
    |pidError sp pv| ≤ 65535 ∧
    |pidP c (pidError sp pv)| ≤ 32767 ∧
    |c.sumError.toInt + pidError sp pv| ≤ 2147483647 ∧
    |pidSum c (pidError sp pv)| ≤ c.maxSumError.toInt ∧
    |pidI cfg c (pidError sp pv)| ≤ cfg.maxITerm ∧
    |pidD c pv| ≤ 2147385345 ∧
    |pidP c (pidError sp pv) + pidI cfg c (pidError sp pv) + pidD c pv| ≤ 32767 + cfg.maxITerm + 2147385345

/-- R142, the source's P1: for every set point and process value, the output is within `±INT16_MAX`. -/
def Obligations.PidOutputWithinInt16 : Prop :=
  ∀ (s : State) (k : Byte) (sp pv : Half) (c : PidCtx), State.Inv s → s.regs.pid[k.toNat]? = some c →
    c.valid = true →
    ∃ t v, exec (.pidStep k sp pv) s = .next t ∧ t.resp = some { status := .ok, value := v } ∧
      -32767 ≤ v.toInt ∧ v.toInt ≤ 32767

/-- R143, the source's P2: with `i = 0`, `d = 0` and no clamp of the sum, an error beyond `MAX_ERROR` shows in the output
as exactly `±INT16_MAX` scaled, with the sign of the error. -/
def Obligations.PidProportionalClampShows : Prop :=
  ∀ (s : State) (k : Byte) (sp pv : Half) (c : PidCtx), State.Inv s → s.regs.pid[k.toNat]? = some c →
    c.valid = true → c.iFactor = 0 → c.dFactor = 0 →
    |c.sumError.toInt + (sp.toInt - pv.toInt)| ≤ c.maxSumError.toInt →
    (sp.toInt - pv.toInt > c.maxError.toInt →
      ∃ t v, exec (.pidStep k sp pv) s = .next t ∧ t.resp = some { status := .ok, value := v } ∧
        v.toInt = Int.tdiv 32767 s.cfg.scalingFactor) ∧
    (sp.toInt - pv.toInt < -c.maxError.toInt →
      ∃ t v, exec (.pidStep k sp pv) s = .next t ∧ t.resp = some { status := .ok, value := v } ∧
        v.toInt = Int.tdiv (-32767) s.cfg.scalingFactor)

/-- R144, the source's P3: after any number of steps with a constant error, whatever the set points and process values
that give it, the sum is the starting sum plus that many times the error, or the bound once that would exceed it, where
it then stays; and mirrored for a negative error. -/
def Obligations.PidWindupReachesBoundAndHolds : Prop :=
  ∀ (e : Int) (l : List (Half × Half)) (s : State) (k : Byte) (c : PidCtx), State.Inv s →
    s.regs.pid[k.toNat]? = some c → c.valid = true → (∀ x ∈ l, x.1.toInt - x.2.toInt = e) →
    ∃ t c', execAll (l.map fun x => .pidStep k x.1 x.2) s = .next t ∧ t.regs.pid[k.toNat]? = some c' ∧
      c'.maxSumError = c.maxSumError ∧
      (0 ≤ e → c'.sumError.toInt = min c.maxSumError.toInt (c.sumError.toInt + l.length * e)) ∧
      (e ≤ 0 → c'.sumError.toInt = max (-c.maxSumError.toInt) (c.sumError.toInt + l.length * e))

/-- R26: an operation on `PID[k]` writes no field of `PID[j]` for `j ≠ k`, and what it does to `PID[k]` and answers
depends on no field of another instance. -/
def Obligations.PidInstancesIndependent : Prop :=
  ∀ (k : Byte) (i : Instr), ((∃ p q r, i = .pidInit k p q r) ∨ (∃ sp pv, i = .pidStep k sp pv) ∨ i = .pidRsti k) →
    (∀ s : State, ∃ t, exec i s = .next t ∧ ∀ j, j ≠ k.toNat → t.regs.pid[j]? = s.regs.pid[j]?) ∧
    (∀ s s' : State, s.cfg = s'.cfg → s.regs.pid[k.toNat]? = s'.regs.pid[k.toNat]? →
      ∃ t t', exec i s = .next t ∧ exec i s' = .next t' ∧ t.regs.pid[k.toNat]? = t'.regs.pid[k.toNat]? ∧
        t.resp = t'.resp)

/-- R3: no rule of the FSM reads a PID register, and no rule of the PID reads an FSM or counter register. Two states that
differ only in what a unit may not read get the same from it. -/
def Obligations.PidAndFsmUnconnected : Prop :=
  (∀ (s : State) (pid : List PidCtx) (i : Instr), State.Inv s → (i = .fsmCycle ∨ ∃ m, i = .senseLd m) →
    ∃ t, exec i s = .next t ∧
      exec i { s with regs := { s.regs with pid := pid } } = .next { t with regs := { t.regs with pid := pid } }) ∧
  (∀ (s s' : State) (k : Byte) (i : Instr), s.cfg = s'.cfg → s.regs.pid = s'.regs.pid →
    ((∃ p q r, i = .pidInit k p q r) ∨ (∃ sp pv, i = .pidStep k sp pv) ∨ i = .pidRsti k) →
    ∃ t t', exec i s = .next t ∧ exec i s' = .next t' ∧ t.regs.pid = t'.regs.pid ∧ t.resp = t'.resp)

/-- R23: `PID[k].VALID` is set by `PID.INIT k` and cleared by reset, and no other operation writes it; `CAL_ACTIVE` is set
by `CAL.BEGIN`, cleared by `CAL.END` and reset, and no other operation writes it. -/
def Obligations.StatusFlagsWrittenOnlyAsSpecified : Prop :=
  ∀ (i : Instr) (s t : State), exec i s = .next t →
    (∀ k c c', s.regs.pid[k]? = some c → t.regs.pid[k]? = some c' → c'.valid ≠ c.valid →
      (c'.valid = true ∧ ∃ (n : Byte) (p q r : Half), i = .pidInit n p q r ∧ n.toNat = k) ∨
      (c'.valid = false ∧ i = .reset)) ∧
    (t.regs.calActive ≠ s.regs.calActive →
      (t.regs.calActive = true ∧ i = .calBegin) ∨ (t.regs.calActive = false ∧ (i = .calEnd ∨ i = .reset)))

/-! ### The motion state machine -/

/-- R166: `FSM.CYCLE`. The first guard that holds, over the cross rule, the lost rule, the thresholds and the table in
order, decides what is written; the response is `CMDOUT` after the writes. -/
def Obligations.FsmCycleResult : Prop :=
  mbzRejected .fsmCycle ∧
  (∀ s : State, s.regs.calActive = true → exec .fsmCycle s = .next (answer .notReady 0 s)) ∧
  (∀ (s : State) (c : StateCfg), s.cfg.wf = true → s.regs.calActive = false →
    s.cfg.fsmRom[s.regs.state.toNat]? = some c →
    let fired := firstGuard s.cfg.crossBandMin c s.regs.sense s.regs.ticks s.regs.pulses
    ∃ t : State, exec .fsmCycle s = .next t ∧
      t = answer .ok (cmdOut t)
        { s with
          regs :=
            { s.regs with
              state := t.regs.state
              steer := t.regs.steer
              speedL := t.regs.speedL
              speedR := t.regs.speedR
              ticks := t.regs.ticks
              pulses := t.regs.pulses } } ∧
      (fired = none → t.regs = s.regs) ∧
      (∀ r : RomRule, fired = some r →
        t.regs.state = r.next.getD s.regs.state ∧
        t.regs.ticks = (if r.rst then 0 else s.regs.ticks) ∧
        t.regs.pulses = (if r.rst then 0 else s.regs.pulses) ∧
        (r.cmd = none →
          t.regs.steer = s.regs.steer ∧ t.regs.speedL = s.regs.speedL ∧ t.regs.speedR = s.regs.speedR) ∧
        (∀ x : RomCmd, r.cmd = some x →
          t.regs.steer.toInt = max (-(s.cfg.steerMax : Int)) (min s.cfg.steerMax x.steer.toInt) ∧
          t.regs.speedL.toInt = max (-(s.cfg.speedMax : Int)) (min s.cfg.speedMax x.spdL.toInt) ∧
          t.regs.speedR.toInt = max (-(s.cfg.speedMax : Int)) (min s.cfg.speedMax x.spdR.toInt))))

/-- The model's choice (log 6) where R29 and U10 give no effect: with a reserved code in `STATE`, which no operation
writes, `FSM.CYCLE` is refused by name. -/
def Obligations.FsmCycleRefusesReservedState : Prop :=
  ∀ s : State, s.cfg.wf = true → s.regs.calActive = false → 19 ≤ s.regs.state.toNat →
    exec .fsmCycle s = .refused .reservedStateCode

/-- R170 to R173: the three phases of `Select` are the first guard that holds in one ordered list. -/
def Obligations.SelectTriesGuardsInOrder : Prop :=
  ∀ (band : Nat) (c : StateCfg) (m : Bitmask) (t e : Word), select band c m t e = firstGuard band c m t e

/-- R176, the source's P6: with no guard of the state holding, a cycle writes no register and answers the unchanged
`CMDOUT`; a fired rule without a command leaves the command registers; after reset the held command is `(0, 0, 0)`. -/
def Obligations.CycleHoldsOnNoMatch : Prop :=
  (∀ (s : State) (c : StateCfg), s.regs.calActive = false → s.cfg.fsmRom[s.regs.state.toNat]? = some c →
    (∀ g ∈ guards s.cfg.crossBandMin c s.regs.sense s.regs.ticks s.regs.pulses, g.1 = false) →
    exec .fsmCycle s = .next (answer .ok (cmdOut s) s)) ∧
  (∀ (s : State) (c : StateCfg) (r : RomRule), s.regs.calActive = false →
    s.cfg.fsmRom[s.regs.state.toNat]? = some c →
    firstGuard s.cfg.crossBandMin c s.regs.sense s.regs.ticks s.regs.pulses = some r → r.cmd = none →
    ∃ t, exec .fsmCycle s = .next t ∧ t.regs.steer = s.regs.steer ∧ t.regs.speedL = s.regs.speedL ∧
      t.regs.speedR = s.regs.speedR) ∧
  (∀ s : State, ∃ t, exec .reset s = .next t ∧ t.regs.steer = 0 ∧ t.regs.speedL = 0 ∧ t.regs.speedR = 0)

/-- R162, the source's P5: two cycles with the same state, bitmask, tick count and pulse count in the same configuration
go to the same state and leave the same counters, and the same command if a rule with a command fires or the command
held before was the same. -/
def Obligations.TransitionIsPure : Prop :=
  ∀ s s' : State, State.Inv s → State.Inv s' → s.cfg = s'.cfg → s.regs.calActive = false →
    s'.regs.calActive = false → s.regs.state = s'.regs.state → s.regs.sense = s'.regs.sense →
    s.regs.ticks = s'.regs.ticks → s.regs.pulses = s'.regs.pulses →
    ∃ t t', exec .fsmCycle s = .next t ∧ exec .fsmCycle s' = .next t' ∧ t.regs.state = t'.regs.state ∧
      t.regs.ticks = t'.regs.ticks ∧ t.regs.pulses = t'.regs.pulses ∧
      (((∃ c r x, s.cfg.fsmRom[s.regs.state.toNat]? = some c ∧
          firstGuard s.cfg.crossBandMin c s.regs.sense s.regs.ticks s.regs.pulses = some r ∧ r.cmd = some x) ∨
        (s.regs.steer = s'.regs.steer ∧ s.regs.speedL = s'.regs.speedL ∧ s.regs.speedR = s'.regs.speedR)) →
        t.regs.steer = t'.regs.steer ∧ t.regs.speedL = t'.regs.speedL ∧ t.regs.speedR = t'.regs.speedR ∧
        t.resp = t'.resp)

/-- R168 and R169: `Cross` is a run of at least `CROSS_BAND_MIN` consecutive 1 bits without wrap-around, the eight values
of the rule for a band of 6, and all sensors dark for every band; `Lost` is the zero bitmask; never both. -/
def Obligations.CrossAndLostConditions : Prop :=
  (∀ (band : Nat) (m : Bitmask), 1 ≤ band → band ≤ 8 →
    (cross band m = true ↔ ∃ j, j + band ≤ 8 ∧ ∀ b, b < band → m.getLsbD (j + b) = true)) ∧
  (∀ m : Bitmask, cross 6 m = true ↔ m ∈ [0x3F, 0x7E, 0x7F, 0xBF, 0xFC, 0xFD, 0xFE, 0xFF]) ∧
  (∀ band : Nat, 1 ≤ band → band ≤ 8 → cross band 0xFF = true) ∧
  (∀ m : Bitmask, lost m = true ↔ m = 0x00) ∧
  (∀ (band : Nat) (m : Bitmask), 1 ≤ band → ¬ (cross band m = true ∧ lost m = true))

/-- R171: a threshold guard that is true stays true until an operation clears the counters. -/
def Obligations.ThresholdGuardsStayTrue : Prop :=
  ∀ (l : List Instr) (s t : State) (x : ThrEntry), noClear l s → execAll l s = .next t →
    thrFires s.regs.ticks s.regs.pulses x = true → thrFires t.regs.ticks t.regs.pulses x = true

/-- R180: `SENSE.LD` writes `SENSE` and nothing else, whatever `CAL_ACTIVE` is. -/
def Obligations.SenseLdResult : Prop :=
  mbzRejected .senseLd ∧
  ∀ (s : State) (m : Byte), exec (.senseLd m) s = .next (answer .ok 0 { s with regs := { s.regs with sense := m } })

/-! ### The classifier -/

/-- R111: `CLS.SAMPLE`. -/
def Obligations.ClsSampleResult : Prop :=
  mbzRejected .clsSample ∧
  (∀ (s : State) (i : Byte) (raw : Half), 8 ≤ i.toNat →
    exec (.clsSample i raw) s = .next (answer .badIndex 0 s)) ∧
  (∀ (s : State) (i : Byte) (raw : Half), i.toNat < 8 → 2 ^ s.cfg.rawW ≤ raw.toNat →
    exec (.clsSample i raw) s = .next (answer .badOperand 0 s)) ∧
  (∀ (s : State) (i : Byte) (raw : Half) (x : Sensor), i.toNat < 8 → raw.toNat < 2 ^ s.cfg.rawW →
    s.regs.sensors[i.toNat]? = some x →
    exec (.clsSample i raw) s = .next (answer .ok 0
      { s with regs := { s.regs with sensors := s.regs.sensors.set i.toNat { x with raw := raw } } }))

/-- R112: `CLS.CLASSIFY`. Bit `i` is 1 exactly when `RAW[i] < THR[i]`, unsigned. -/
def Obligations.ClsClassifyResult : Prop :=
  mbzRejected .clsClassify ∧
  (∀ s : State, s.regs.calActive = true → exec .clsClassify s = .next (answer .notReady 0 s)) ∧
  (∀ s : State, State.Inv s → s.regs.calActive = false →
    ∃ m : Bitmask,
      exec .clsClassify s = .next (answer .ok (m.setWidth 32) { s with regs := { s.regs with sense := m } }) ∧
      ∀ (i : Nat) (x : Sensor), s.regs.sensors[i]? = some x →
        (m.getLsbD i = true ↔ x.raw.toNat < x.thr.toNat))

/-- R119, the source's P4: raising one sensor's reading across its threshold flips exactly that output bit. -/
def Obligations.ReadingAcrossThresholdFlipsOneBit : Prop :=
  ∀ (s : State) (i : Byte) (raw : Half) (x : Sensor), State.Inv s → s.regs.calActive = false → i.toNat < 8 →
    s.regs.sensors[i.toNat]? = some x → raw.toNat < 2 ^ s.cfg.rawW →
    x.raw.toNat < x.thr.toNat → x.thr.toNat ≤ raw.toNat →
    ∃ t u, exec .clsClassify s = .next t ∧ execAll [.clsSample i raw, .clsClassify] s = .next u ∧
      t.regs.sense.getLsbD i.toNat = true ∧ u.regs.sense.getLsbD i.toNat = false ∧
      ∀ j, j ≠ i.toNat → u.regs.sense.getLsbD j = t.regs.sense.getLsbD j

/-- R118: with every threshold at its reset value, `CLS.CLASSIFY` gives bitmask `0x00` and status `OK`, whatever the
readings. -/
def Obligations.DegenerateCalibrationGivesZero : Prop :=
  ∀ s : State, s.regs.calActive = false → (∀ x ∈ s.regs.sensors, x.thr = 0) →
    exec .clsClassify s = .next (answer .ok 0 { s with regs := { s.regs with sense := 0x00 } })

/-- R113: `CAL.BEGIN`. -/
def Obligations.CalBeginResult : Prop :=
  mbzRejected .calBegin ∧
  (∀ s : State, s.regs.calActive = true → exec .calBegin s = .next (answer .notReady 0 s)) ∧
  (∀ s : State, s.cfg.wf = true → s.regs.calActive = false →
    ∃ xs : List Sensor,
      exec .calBegin s = .next (answer .ok 0 { s with regs := { s.regs with sensors := xs, calActive := true } }) ∧
      xs.length = s.regs.sensors.length ∧
      ∀ (i : Nat) (x x' : Sensor), s.regs.sensors[i]? = some x → xs[i]? = some x' →
        x'.cmin.toNat = 2 ^ s.cfg.rawW - 1 ∧ x'.cmax = 0 ∧ x'.raw = x.raw ∧ x'.thr = x.thr)

/-- R114: `CAL.UPDATE`. -/
def Obligations.CalUpdateResult : Prop :=
  mbzRejected .calUpdate ∧
  (∀ s : State, s.regs.calActive = false → exec .calUpdate s = .next (answer .notReady 0 s)) ∧
  (∀ s : State, s.regs.calActive = true →
    ∃ xs : List Sensor,
      exec .calUpdate s = .next (answer .ok 0 { s with regs := { s.regs with sensors := xs } }) ∧
      xs.length = s.regs.sensors.length ∧
      ∀ (i : Nat) (x x' : Sensor), s.regs.sensors[i]? = some x → xs[i]? = some x' →
        x'.cmin.toNat = min x.cmin.toNat x.raw.toNat ∧ x'.cmax.toNat = max x.cmax.toNat x.raw.toNat ∧
        x'.raw = x.raw ∧ x'.thr = x.thr)

/-- R115 and R117: `CAL.END`. -/
def Obligations.CalEndResult : Prop :=
  mbzRejected .calEnd ∧
  (∀ s : State, s.regs.calActive = false → exec .calEnd s = .next (answer .notReady 0 s)) ∧
  (∀ s : State, s.regs.calActive = true →
    ∃ xs : List Sensor,
      exec .calEnd s = .next (answer .ok 0 { s with regs := { s.regs with sensors := xs, calActive := false } }) ∧
      xs.length = s.regs.sensors.length ∧
      ∀ (i : Nat) (x x' : Sensor), s.regs.sensors[i]? = some x → xs[i]? = some x' →
        x'.thr.toNat = (x.cmin.toNat + x.cmax.toNat) / 2 ∧ x'.raw = x.raw ∧ x'.cmin = x.cmin ∧ x'.cmax = x.cmax)

/-- R116: `CAL.LOAD`. -/
def Obligations.CalLoadResult : Prop :=
  mbzRejected .calLoad ∧
  (∀ (s : State) (i : Byte) (lo hi : Half), 8 ≤ i.toNat →
    exec (.calLoad i lo hi) s = .next (answer .badIndex 0 s)) ∧
  (∀ (s : State) (i : Byte) (lo hi : Half), i.toNat < 8 →
    (2 ^ s.cfg.rawW ≤ lo.toNat ∨ 2 ^ s.cfg.rawW ≤ hi.toNat) →
    exec (.calLoad i lo hi) s = .next (answer .badOperand 0 s)) ∧
  (∀ (s : State) (i : Byte) (lo hi : Half), i.toNat < 8 → lo.toNat < 2 ^ s.cfg.rawW → hi.toNat < 2 ^ s.cfg.rawW →
    s.regs.calActive = true → exec (.calLoad i lo hi) s = .next (answer .notReady 0 s)) ∧
  (∀ (s : State) (i : Byte) (lo hi : Half) (x : Sensor), i.toNat < 8 → lo.toNat < 2 ^ s.cfg.rawW →
    hi.toNat < 2 ^ s.cfg.rawW → s.regs.calActive = false → s.regs.sensors[i.toNat]? = some x →
    ∃ th : Half, th.toNat = (lo.toNat + hi.toNat) / 2 ∧
      exec (.calLoad i lo hi) s = .next (answer .ok 0
        { s with regs := { s.regs with
            sensors := s.regs.sensors.set i.toNat { x with cmin := lo, cmax := hi, thr := th } } }))

/-- R113 to R115 together: a session that folds two readings of a sensor learns their minimum and maximum, and its
threshold is their average; the readings in the registers before the session take no part. -/
def Obligations.CalibrationLearnsTheRange : Prop :=
  ∀ (s : State) (i : Byte) (a b : Half), State.Inv s → s.regs.calActive = false → i.toNat < 8 →
    a.toNat < 2 ^ s.cfg.rawW → b.toNat < 2 ^ s.cfg.rawW →
    ∃ t x, execAll [.calBegin, .clsSample i a, .calUpdate, .clsSample i b, .calUpdate, .calEnd] s = .next t ∧
      t.regs.sensors[i.toNat]? = some x ∧ x.raw = b ∧ x.cmin.toNat = min a.toNat b.toNat ∧
      x.cmax.toNat = max a.toNat b.toNat ∧ x.thr.toNat = (a.toNat + b.toNat) / 2 ∧ t.regs.calActive = false

/-- R121: while a session is open, `CLS.CLASSIFY`, `FSM.CYCLE`, `CAL.LOAD` and `CAL.BEGIN` are rejected with `NOT_READY`;
while none is open, `CAL.UPDATE` and `CAL.END` are; every other command is answered with the same status in both, and
the events are accepted in both. -/
def Obligations.SessionExclusivity : Prop :=
  (∀ (s : State) (i : Instr), s.regs.calActive = true → i.wellFormed s.cfg = true →
    (i = .clsClassify ∨ i = .fsmCycle ∨ (∃ n lo hi, i = .calLoad n lo hi) ∨ i = .calBegin) →
    exec i s = .next (answer .notReady 0 s)) ∧
  (∀ (s : State) (i : Instr), s.regs.calActive = false → (i = .calUpdate ∨ i = .calEnd) →
    exec i s = .next (answer .notReady 0 s)) ∧
  (∀ (s : State) (b : Bool) (i : Instr),
    ((∃ n raw, i = .clsSample n raw) ∨ (∃ m, i = .senseLd m) ∨ (∃ a, i = .rd a) ∨ i = .nop ∨
      (∃ k p q r, i = .pidInit k p q r) ∨ (∃ k sp pv, i = .pidStep k sp pv) ∨ (∃ k, i = .pidRsti k)) →
    ∃ t t' p p', exec i s = .next t ∧ exec i { s with regs := { s.regs with calActive := b } } = .next t' ∧
      t.resp = some p ∧ t'.resp = some p' ∧ p.status = p'.status) ∧
  (∀ (s : State) (i : Instr), (i = .evTick ∨ i = .evEnc ∨ i = .evBoth) → ∃ t, exec i s = .next t)

/-! ### Events and reset -/

/-- R231, R232 and R233: each event adds one to its counter, saturating, and writes nothing else, in every condition of
the block; `EV.BOTH` is one tick and one edge, in either order. -/
def Obligations.EventsIncrementTheirCounter : Prop :=
  (∀ s : State, ∃ v : Word, v.toNat = min (s.regs.ticks.toNat + 1) 4294967295 ∧
    exec .evTick s = .next { s with regs := { s.regs with ticks := v } }) ∧
  (∀ s : State, ∃ v : Word, v.toNat = min (s.regs.pulses.toNat + 1) 4294967295 ∧
    exec .evEnc s = .next { s with regs := { s.regs with pulses := v } }) ∧
  (∀ s : State, ∃ v w : Word, v.toNat = min (s.regs.ticks.toNat + 1) 4294967295 ∧
    w.toNat = min (s.regs.pulses.toNat + 1) 4294967295 ∧
    exec .evBoth s = .next { s with regs := { s.regs with ticks := v, pulses := w } }) ∧
  (∀ s : State, perform (.event 0b01) s = exec .evTick s ∧ perform (.event 0b10) s = exec .evEnc s ∧
    perform (.event 0b11) s = exec .evBoth s) ∧
  (∀ s : State, exec .evBoth s = execAll [.evTick, .evEnc] s ∧ exec .evBoth s = execAll [.evEnc, .evTick] s)

/-- R236: over any operations none of which clears the counters, each counter has grown by exactly the number of events
of its line, or stands at `2^32 - 1` if that would exceed it. -/
def Obligations.CountersCountEvents : Prop :=
  ∀ (l : List Instr) (s t : State), noClear l s → execAll l s = .next t →
    t.regs.ticks.toNat =
      min (s.regs.ticks.toNat + l.countP (fun i => i == .evTick || i == .evBoth)) 4294967295 ∧
    t.regs.pulses.toNat =
      min (s.regs.pulses.toNat + l.countP (fun i => i == .evEnc || i == .evBoth)) 4294967295 ∧
    s.regs.ticks.toNat ≤ t.regs.ticks.toNat ∧ s.regs.pulses.toNat ≤ t.regs.pulses.toNat

/-- R38 and R291: reset writes every register with its reset value, whatever the state before; the configuration and the
ports stay, and the views read 0. -/
def Obligations.ResetWritesEveryRegister : Prop :=
  ∀ s : State, ∃ t : State, exec .reset s = .next t ∧
    t = { s with regs := t.regs } ∧
    t.regs.state = 0 ∧ t.regs.steer = 0 ∧ t.regs.speedL = 0 ∧ t.regs.speedR = 0 ∧ t.regs.sense = 0x00 ∧
    t.regs.ticks = 0 ∧ t.regs.pulses = 0 ∧ t.regs.calActive = false ∧
    t.regs.pid.length = s.cfg.nPid ∧
    (∀ c ∈ t.regs.pid, c = { pFactor := 0, iFactor := 0, dFactor := 0, maxError := 0, maxSumError := 0, sumError := 0,
                             lastPv := 0, out := 0, valid := false }) ∧
    t.regs.sensors.length = 8 ∧ (∀ x ∈ t.regs.sensors, x = { raw := 0, cmin := 0, cmax := 0, thr := 0 }) ∧
    outState t = 0 ∧ outSteer t = 0 ∧ outSpeedL t = 0 ∧ outSpeedR t = 0 ∧ cmdOut t = 0 ∧ status t = 0

/-! ### The whole machine -/

/-- R39, the write columns: which operation writes which register; and no operation writes the configuration (R36), the
host's stream or the count of choices. -/
def Obligations.AccessMatrixWrites : Prop :=
  ∀ (i : Instr) (s t : State), exec i s = .next t →
    (t.cfg = s.cfg ∧ t.pending = s.pending ∧ t.choices = s.choices) ∧
    (t.regs.pid ≠ s.regs.pid →
      (∃ k p q r, i = .pidInit k p q r) ∨ (∃ k sp pv, i = .pidStep k sp pv) ∨ (∃ k, i = .pidRsti k) ∨ i = .reset) ∧
    (t.regs.ticks ≠ s.regs.ticks → i = .evTick ∨ i = .evBoth ∨ i = .fsmCycle ∨ i = .reset) ∧
    (t.regs.pulses ≠ s.regs.pulses → i = .evEnc ∨ i = .evBoth ∨ i = .fsmCycle ∨ i = .reset) ∧
    ((t.regs.state ≠ s.regs.state ∨ t.regs.steer ≠ s.regs.steer ∨ t.regs.speedL ≠ s.regs.speedL ∨
        t.regs.speedR ≠ s.regs.speedR) → i = .fsmCycle ∨ i = .reset) ∧
    (t.regs.sense ≠ s.regs.sense → (∃ m, i = .senseLd m) ∨ i = .clsClassify ∨ i = .reset) ∧
    (t.regs.sensors.map (·.raw) ≠ s.regs.sensors.map (·.raw) → (∃ n raw, i = .clsSample n raw) ∨ i = .reset) ∧
    ((t.regs.sensors.map (·.cmin) ≠ s.regs.sensors.map (·.cmin) ∨
        t.regs.sensors.map (·.cmax) ≠ s.regs.sensors.map (·.cmax)) →
      i = .calBegin ∨ i = .calUpdate ∨ (∃ n lo hi, i = .calLoad n lo hi) ∨ i = .reset) ∧
    (t.regs.sensors.map (·.thr) ≠ s.regs.sensors.map (·.thr) →
      i = .calEnd ∨ (∃ n lo hi, i = .calLoad n lo hi) ∨ i = .reset) ∧
    (t.regs.calActive ≠ s.regs.calActive → i = .calBegin ∨ i = .calEnd ∨ i = .reset)

/-- R20, R36 and R37: no hidden state. What an operation does to the registers, and what a command answers, depend on the
registers and the configuration alone: not on the stream, the responses before it or the orderings taken. -/
def Obligations.NoHiddenState : Prop :=
  ∀ (i : Instr) (s s' : State), State.Inv s → s.regs = s'.regs → s.cfg = s'.cfg →
    ∃ t t', exec i s = .next t ∧ exec i s' = .next t' ∧ t.regs = t'.regs ∧
      (i.isCommand = true → t.resp = t'.resp)

/-- The machine right after reset meets the invariant (R38, R25, R181), with the model's parameters among it (log 1). -/
def Obligations.ResetMeetsInvariant : Prop := State.Inv State.reset

/-- R25, R29, R33 and R181: every step keeps the invariant, from every state that meets it. -/
def Obligations.StepKeepsInvariant : Prop :=
  ∀ s t : State, State.Inv s → step s = .next t → State.Inv t

/-- R260, R303 and R305: every operation completes and there is no halt. From every state that meets the invariant the
machine takes any number of steps, whatever the host presents, and meets it still. -/
def Obligations.MachineNeverStops : Prop :=
  ∀ (n : Nat) (s : State), State.Inv s → ∃ t, Host.Core.run Sys2Proof.core n s = .next t ∧ State.Inv t
end

