-- ==== Sys2Proof/Laws/Bits.lean ====
section
/-! SUPPORT. Facts about the fields of a command word, about writing an exact integer into a register, and about the
packing helpers. -/

namespace Sys2Proof.Laws

/-! ### The fields of a command word -/

@[simp] theorem opField_commandWord (op k : Byte) (a b c : Half) : opField (commandWord op k a b c) = op := by
  unfold opField commandWord
  ext i hi
  simp only [BitVec.getElem_extractLsb', BitVec.getLsbD_append]
  simp [show ¬ (56 + i < 16) by omega, show ¬ (56 + i - 16 < 16) by omega, show ¬ (56 + i - 16 - 16 < 16) by omega,
    show ¬ (56 + i - 16 - 16 - 16 < 8) by omega, show 56 + i - 16 - 16 - 16 - 8 = i by omega]
  exact BitVec.getLsbD_eq_getElem hi

@[simp] theorem kField_commandWord (op k : Byte) (a b c : Half) : kField (commandWord op k a b c) = k := by
  unfold kField commandWord
  ext i hi
  simp only [BitVec.getElem_extractLsb', BitVec.getLsbD_append]
  simp [show ¬ (48 + i < 16) by omega, show ¬ (48 + i - 16 < 16) by omega, show ¬ (48 + i - 16 - 16 < 16) by omega,
    show 48 + i - 16 - 16 - 16 = i by omega, hi]

@[simp] theorem aField_commandWord (op k : Byte) (a b c : Half) : aField (commandWord op k a b c) = a := by
  unfold aField commandWord
  ext i hi
  simp only [BitVec.getElem_extractLsb', BitVec.getLsbD_append]
  simp [show ¬ (32 + i < 16) by omega, show ¬ (32 + i - 16 < 16) by omega,
    show 32 + i - 16 - 16 = i by omega, hi]

@[simp] theorem bField_commandWord (op k : Byte) (a b c : Half) : bField (commandWord op k a b c) = b := by
  unfold bField commandWord
  ext i hi
  simp only [BitVec.getElem_extractLsb', BitVec.getLsbD_append]
  simp [hi]

@[simp] theorem cField_commandWord (op k : Byte) (a b c : Half) : cField (commandWord op k a b c) = c := by
  unfold cField commandWord
  ext i hi
  simp only [BitVec.getElem_extractLsb', BitVec.getLsbD_append]
  simp [hi]

/-- Bit `i` of a command word is a bit of one of its fields (R81). -/
theorem commandWord_getLsbD (op k : Byte) (a b c : Half) (i : Nat) :
    (commandWord op k a b c).getLsbD i =
      if i < 16 then c.getLsbD i else if i < 32 then b.getLsbD (i - 16) else if i < 48 then a.getLsbD (i - 32)
      else if i < 56 then k.getLsbD (i - 48) else op.getLsbD (i - 56) := by
  unfold commandWord
  simp only [BitVec.getLsbD_append]
  by_cases h1 : i < 16
  · simp [h1]
  by_cases h2 : i < 32
  · simp [h1, h2, show i - 16 < 16 by omega]
  by_cases h3 : i < 48
  · simp [h1, h2, h3, show ¬ (i - 16 < 16) by omega, show i - 32 < 16 by omega, show i - 16 - 16 = i - 32 by omega]
  by_cases h4 : i < 56
  · simp [h1, h2, h3, h4, show ¬ (i - 16 < 16) by omega, show ¬ (i - 16 - 16 < 16) by omega,
      show i - 48 < 8 by omega, show i - 16 - 16 - 16 = i - 48 by omega]
  · simp [h1, h2, h3, h4, show ¬ (i - 16 < 16) by omega, show ¬ (i - 16 - 16 < 16) by omega,
      show ¬ (i - 16 - 16 - 16 < 8) by omega, show i - 16 - 16 - 16 - 8 = i - 56 by omega]

/-- A word is put together from its five fields (R81). -/
theorem commandWord_fields (w : CmdWord) :
    commandWord (opField w) (kField w) (aField w) (bField w) (cField w) = w := by
  apply BitVec.eq_of_getLsbD_eq
  intro i hi
  rw [commandWord_getLsbD]
  unfold opField kField aField bField cField
  simp only [BitVec.getLsbD_extractLsb']
  by_cases h1 : i < 16
  · simp [h1]
  by_cases h2 : i < 32
  · simp [h1, h2, show i - 16 < 16 by omega, show 16 + (i - 16) = i by omega]
  by_cases h3 : i < 48
  · simp [h1, h2, h3, show i - 32 < 16 by omega, show 32 + (i - 32) = i by omega]
  by_cases h4 : i < 56
  · simp [h1, h2, h3, h4, show i - 48 < 8 by omega, show 48 + (i - 48) = i by omega]
  · simp [h1, h2, h3, h4, show i - 56 < 8 by omega, show 56 + (i - 56) = i by omega]

theorem commandWord_inj {op op' k k' : Byte} {a a' b b' c c' : Half} :
    commandWord op k a b c = commandWord op' k' a' b' c' ↔ op = op' ∧ k = k' ∧ a = a' ∧ b = b' ∧ c = c' := by
  constructor
  · intro h
    refine ⟨?_, ?_, ?_, ?_, ?_⟩
    · simpa using congrArg opField h
    · simpa using congrArg kField h
    · simpa using congrArg aField h
    · simpa using congrArg bField h
    · simpa using congrArg cField h
  · rintro ⟨rfl, rfl, rfl, rfl, rfl⟩
    rfl

theorem commandWord_and (op op' k k' : Byte) (a a' b b' c c' : Half) :
    commandWord op k a b c &&& commandWord op' k' a' b' c' =
      commandWord (op &&& op') (k &&& k') (a &&& a') (b &&& b') (c &&& c') := by
  apply BitVec.eq_of_getLsbD_eq
  intro i _
  simp only [BitVec.getLsbD_and, commandWord_getLsbD]
  split <;> [rfl; split <;> [rfl; split <;> [rfl; split <;> rfl]]]

/-- `c[15:8]` and `c[7:0]` (R85). -/
theorem cField_getLsbD (w : CmdWord) (i : Nat) :
    (cField w).getLsbD i = if i < 8 then (cLow w).getLsbD i else (cHigh w).getLsbD (i - 8) := by
  unfold cField cHigh cLow
  simp only [BitVec.getLsbD_extractLsb']
  by_cases h : i < 8
  · simp [h, show i < 16 by omega]
  · by_cases h2 : i < 16
    · simp [h, h2, show i - 8 < 8 by omega, show 8 + (i - 8) = i by omega]
    · simp [h, h2, show ¬ (i - 8 < 8) by omega]

theorem maskField_getLsbD (m : Byte) (i : Nat) : (maskField m).getLsbD i = if i < 8 then m.getLsbD i else false := by
  unfold maskField
  simp only [BitVec.getLsbD_append]
  split <;> simp

@[simp] theorem cLow_commandWord_maskField (op k : Byte) (a b : Half) (m : Byte) :
    cLow (commandWord op k a b (maskField m)) = m := by
  apply BitVec.eq_of_getLsbD_eq
  intro i hi
  have h := cField_getLsbD (commandWord op k a b (maskField m)) i
  rw [cField_commandWord, maskField_getLsbD] at h
  simpa [hi] using h.symm

@[simp] theorem cHigh_commandWord_maskField (op k : Byte) (a b : Half) (m : Byte) :
    cHigh (commandWord op k a b (maskField m)) = 0 := by
  apply BitVec.eq_of_getLsbD_eq
  intro i hi
  have h := cField_getLsbD (commandWord op k a b (maskField m)) (i + 8)
  rw [cField_commandWord, maskField_getLsbD] at h
  simpa using h.symm

/-- With `c[15:8]` zero the `c` field is the bitmask operand alone (R85). -/
theorem maskField_cLow {w : CmdWord} (h : cHigh w = 0) : maskField (cLow w) = cField w := by
  apply BitVec.eq_of_getLsbD_eq
  intro i _
  rw [cField_getLsbD, maskField_getLsbD, h]
  simp

/-! ### Opcodes -/

@[simp] theorem ofByte_code (o : Opcode) : Opcode.ofByte o.code = some o := by
  cases o <;> rfl

theorem code_of_ofByte {v : Byte} {o : Opcode} (h : Opcode.ofByte v = some o) : o.code = v := by
  have := List.find?_some h
  simpa using this

theorem ofByte_eq_some {v : Byte} {o : Opcode} : Opcode.ofByte v = some o ↔ o.code = v :=
  ⟨code_of_ofByte, fun h => h ▸ ofByte_code o⟩

/-! ### Exact integers and registers -/

/-- An integer in the signed range of 16 bits is what a 16-bit register that is given it holds (R10, R11). -/
theorem toInt_ofInt_16 {x : Int} (lo : -32768 ≤ x) (hi : x ≤ 32767) : (BitVec.ofInt 16 x).toInt = x := by
  rw [BitVec.toInt_ofInt]
  exact Int.bmod_eq_of_le (by omega) (by omega)

/-- The same for 32 bits. -/
theorem toInt_ofInt_32 {x : Int} (lo : -2147483648 ≤ x) (hi : x ≤ 2147483647) : (BitVec.ofInt 32 x).toInt = x := by
  rw [BitVec.toInt_ofInt]
  exact Int.bmod_eq_of_le (by omega) (by omega)

/-- The same for the 9 bits of `STEER`. -/
theorem toInt_ofInt_9 {x : Int} (lo : -256 ≤ x) (hi : x ≤ 255) : (BitVec.ofInt 9 x).toInt = x := by
  rw [BitVec.toInt_ofInt]
  exact Int.bmod_eq_of_le (by omega) (by omega)

/-- The same for the 8 bits of a speed register. -/
theorem toInt_ofInt_8 {x : Int} (lo : -128 ≤ x) (hi : x ≤ 127) : (BitVec.ofInt 8 x).toInt = x := by
  rw [BitVec.toInt_ofInt]
  exact Int.bmod_eq_of_le (by omega) (by omega)

theorem toInt_bounds_16 (v : Half) : -32768 ≤ v.toInt ∧ v.toInt ≤ 32767 := by
  have h1 := BitVec.le_toInt v
  have h2 := BitVec.toInt_lt (x := v)
  constructor <;> simp at h1 h2 <;> omega

theorem toInt_bounds_32 (v : Word) : -2147483648 ≤ v.toInt ∧ v.toInt ≤ 2147483647 := by
  have h1 := BitVec.le_toInt v
  have h2 := BitVec.toInt_lt (x := v)
  constructor <;> simp at h1 h2 <;> omega

open Sys2Proof.Machine

/-- The two bounds of `clamp` (R12). -/
theorem clamp_eq {x lo hi : Int} (h : lo ≤ hi) : clamp x lo hi = max lo (min hi x) := by
  unfold clamp
  split <;> [skip; split] <;> omega

theorem clamp_bounds {x lo hi : Int} (h : lo ≤ hi) : lo ≤ clamp x lo hi ∧ clamp x lo hi ≤ hi := by
  rw [clamp_eq h]
  omega

/-- The average of two readings is exact: it never leaves 16 bits (R117). -/
theorem average_toNat (lo hi : Half) : (average lo hi).toNat = (lo.toNat + hi.toNat) / 2 := by
  unfold average
  rw [BitVec.toNat_ofNat]
  have h1 := lo.isLt
  have h2 := hi.isLt
  omega

/-- A counter after an event is exact (R231, R232). -/
theorem bump_toNat (v : Word) : (bump v).toNat = min (v.toNat + 1) 4294967295 := by
  unfold bump
  rw [BitVec.toNat_ofNat]
  simp only [cntMax]
  omega

theorem packBits_lt : ∀ bs : List Bool, packBits bs < 2 ^ bs.length
  | [] => by simp [packBits]
  | b :: bs => by
    have ih := packBits_lt bs
    have : b.toNat < 2 := b.toNat_lt
    simp only [packBits, List.length_cons, Nat.pow_succ]
    omega

/-- Bit `i` of the packed number is entry `i` of the list (R9). -/
theorem packBits_testBit : ∀ (bs : List Bool) (i : Nat), (packBits bs).testBit i = bs[i]?.getD false
  | [], i => by simp [packBits]
  | b :: bs, 0 => by cases b <;> simp [packBits, Nat.testBit_zero]
  | b :: bs, i + 1 => by
    have ih := packBits_testBit bs i
    have : packBits (b :: bs) / 2 = packBits bs := by
      have : b.toNat < 2 := b.toNat_lt
      simp only [packBits]
      omega
    rw [Nat.testBit_succ, this, ih]
    simp

end Sys2Proof.Laws
end

