-- ==== Sys2Proof/Laws/State.lean ====
section
/-! SUPPORT. What each update of the state leaves in each field, one lemma for each, so that no proof unfolds a record
update. -/

namespace Sys2Proof.Laws

open Sys2Proof.Machine

variable (s : State) (r : Regs) (cfg : Config) (k i : Nat) (c : PidCtx) (x : Sensor) (f : Sensor → Sensor) (m : Bitmask)
  (b : Bool) (q : StateCfg) (d : Option RomCmd) (n : Option StateCode) (u : Option RomRule)

/-! ### `setPid` writes the list of PID contexts. -/

@[simp] theorem setPid_pid : (setPid s k c).regs.pid = s.regs.pid.set k c := rfl
@[simp] theorem setPid_ticks : (setPid s k c).regs.ticks = s.regs.ticks := rfl
@[simp] theorem setPid_pulses : (setPid s k c).regs.pulses = s.regs.pulses := rfl
@[simp] theorem setPid_state : (setPid s k c).regs.state = s.regs.state := rfl
@[simp] theorem setPid_steer : (setPid s k c).regs.steer = s.regs.steer := rfl
@[simp] theorem setPid_speedL : (setPid s k c).regs.speedL = s.regs.speedL := rfl
@[simp] theorem setPid_speedR : (setPid s k c).regs.speedR = s.regs.speedR := rfl
@[simp] theorem setPid_sense : (setPid s k c).regs.sense = s.regs.sense := rfl
@[simp] theorem setPid_sensors : (setPid s k c).regs.sensors = s.regs.sensors := rfl
@[simp] theorem setPid_calActive : (setPid s k c).regs.calActive = s.regs.calActive := rfl
@[simp] theorem setPid_cfg : (setPid s k c).cfg = s.cfg := rfl
@[simp] theorem setPid_pending : (setPid s k c).pending = s.pending := rfl
@[simp] theorem setPid_choices : (setPid s k c).choices = s.choices := rfl
@[simp] theorem setPid_resp : (setPid s k c).resp = s.resp := rfl

/-! ### `setSensor` writes the registers of one sensor. -/

@[simp] theorem setSensor_pid : (setSensor s i x).regs.pid = s.regs.pid := rfl
@[simp] theorem setSensor_ticks : (setSensor s i x).regs.ticks = s.regs.ticks := rfl
@[simp] theorem setSensor_pulses : (setSensor s i x).regs.pulses = s.regs.pulses := rfl
@[simp] theorem setSensor_state : (setSensor s i x).regs.state = s.regs.state := rfl
@[simp] theorem setSensor_steer : (setSensor s i x).regs.steer = s.regs.steer := rfl
@[simp] theorem setSensor_speedL : (setSensor s i x).regs.speedL = s.regs.speedL := rfl
@[simp] theorem setSensor_speedR : (setSensor s i x).regs.speedR = s.regs.speedR := rfl
@[simp] theorem setSensor_sense : (setSensor s i x).regs.sense = s.regs.sense := rfl
@[simp] theorem setSensor_sensors : (setSensor s i x).regs.sensors = s.regs.sensors.set i x := rfl
@[simp] theorem setSensor_calActive : (setSensor s i x).regs.calActive = s.regs.calActive := rfl
@[simp] theorem setSensor_cfg : (setSensor s i x).cfg = s.cfg := rfl
@[simp] theorem setSensor_pending : (setSensor s i x).pending = s.pending := rfl
@[simp] theorem setSensor_choices : (setSensor s i x).choices = s.choices := rfl
@[simp] theorem setSensor_resp : (setSensor s i x).resp = s.resp := rfl

/-! ### `mapSensors` writes the registers of every sensor. -/

@[simp] theorem mapSensors_pid : (mapSensors s f).regs.pid = s.regs.pid := rfl
@[simp] theorem mapSensors_ticks : (mapSensors s f).regs.ticks = s.regs.ticks := rfl
@[simp] theorem mapSensors_pulses : (mapSensors s f).regs.pulses = s.regs.pulses := rfl
@[simp] theorem mapSensors_state : (mapSensors s f).regs.state = s.regs.state := rfl
@[simp] theorem mapSensors_steer : (mapSensors s f).regs.steer = s.regs.steer := rfl
@[simp] theorem mapSensors_speedL : (mapSensors s f).regs.speedL = s.regs.speedL := rfl
@[simp] theorem mapSensors_speedR : (mapSensors s f).regs.speedR = s.regs.speedR := rfl
@[simp] theorem mapSensors_sense : (mapSensors s f).regs.sense = s.regs.sense := rfl
@[simp] theorem mapSensors_sensors : (mapSensors s f).regs.sensors = s.regs.sensors.map f := rfl
@[simp] theorem mapSensors_calActive : (mapSensors s f).regs.calActive = s.regs.calActive := rfl
@[simp] theorem mapSensors_cfg : (mapSensors s f).cfg = s.cfg := rfl
@[simp] theorem mapSensors_pending : (mapSensors s f).pending = s.pending := rfl
@[simp] theorem mapSensors_choices : (mapSensors s f).choices = s.choices := rfl
@[simp] theorem mapSensors_resp : (mapSensors s f).resp = s.resp := rfl

/-! ### `setSense` writes `SENSE`. -/

@[simp] theorem setSense_pid : (setSense s m).regs.pid = s.regs.pid := rfl
@[simp] theorem setSense_ticks : (setSense s m).regs.ticks = s.regs.ticks := rfl
@[simp] theorem setSense_pulses : (setSense s m).regs.pulses = s.regs.pulses := rfl
@[simp] theorem setSense_state : (setSense s m).regs.state = s.regs.state := rfl
@[simp] theorem setSense_steer : (setSense s m).regs.steer = s.regs.steer := rfl
@[simp] theorem setSense_speedL : (setSense s m).regs.speedL = s.regs.speedL := rfl
@[simp] theorem setSense_speedR : (setSense s m).regs.speedR = s.regs.speedR := rfl
@[simp] theorem setSense_sense : (setSense s m).regs.sense = m := rfl
@[simp] theorem setSense_sensors : (setSense s m).regs.sensors = s.regs.sensors := rfl
@[simp] theorem setSense_calActive : (setSense s m).regs.calActive = s.regs.calActive := rfl
@[simp] theorem setSense_cfg : (setSense s m).cfg = s.cfg := rfl
@[simp] theorem setSense_pending : (setSense s m).pending = s.pending := rfl
@[simp] theorem setSense_choices : (setSense s m).choices = s.choices := rfl
@[simp] theorem setSense_resp : (setSense s m).resp = s.resp := rfl

/-! ### `setCalActive` writes `CAL_ACTIVE`. -/

@[simp] theorem setCalActive_pid : (setCalActive s b).regs.pid = s.regs.pid := rfl
@[simp] theorem setCalActive_ticks : (setCalActive s b).regs.ticks = s.regs.ticks := rfl
@[simp] theorem setCalActive_pulses : (setCalActive s b).regs.pulses = s.regs.pulses := rfl
@[simp] theorem setCalActive_state : (setCalActive s b).regs.state = s.regs.state := rfl
@[simp] theorem setCalActive_steer : (setCalActive s b).regs.steer = s.regs.steer := rfl
@[simp] theorem setCalActive_speedL : (setCalActive s b).regs.speedL = s.regs.speedL := rfl
@[simp] theorem setCalActive_speedR : (setCalActive s b).regs.speedR = s.regs.speedR := rfl
@[simp] theorem setCalActive_sense : (setCalActive s b).regs.sense = s.regs.sense := rfl
@[simp] theorem setCalActive_sensors : (setCalActive s b).regs.sensors = s.regs.sensors := rfl
@[simp] theorem setCalActive_calActive : (setCalActive s b).regs.calActive = b := rfl
@[simp] theorem setCalActive_cfg : (setCalActive s b).cfg = s.cfg := rfl
@[simp] theorem setCalActive_pending : (setCalActive s b).pending = s.pending := rfl
@[simp] theorem setCalActive_choices : (setCalActive s b).choices = s.choices := rfl
@[simp] theorem setCalActive_resp : (setCalActive s b).resp = s.resp := rfl

/-! ### `tick` writes `TICKS`. -/

@[simp] theorem tick_pid : (tick s).regs.pid = s.regs.pid := rfl
@[simp] theorem tick_ticks : (tick s).regs.ticks = bump s.regs.ticks := rfl
@[simp] theorem tick_pulses : (tick s).regs.pulses = s.regs.pulses := rfl
@[simp] theorem tick_state : (tick s).regs.state = s.regs.state := rfl
@[simp] theorem tick_steer : (tick s).regs.steer = s.regs.steer := rfl
@[simp] theorem tick_speedL : (tick s).regs.speedL = s.regs.speedL := rfl
@[simp] theorem tick_speedR : (tick s).regs.speedR = s.regs.speedR := rfl
@[simp] theorem tick_sense : (tick s).regs.sense = s.regs.sense := rfl
@[simp] theorem tick_sensors : (tick s).regs.sensors = s.regs.sensors := rfl
@[simp] theorem tick_calActive : (tick s).regs.calActive = s.regs.calActive := rfl
@[simp] theorem tick_cfg : (tick s).cfg = s.cfg := rfl
@[simp] theorem tick_pending : (tick s).pending = s.pending := rfl
@[simp] theorem tick_choices : (tick s).choices = s.choices := rfl
@[simp] theorem tick_resp : (tick s).resp = s.resp := rfl

/-! ### `encoderEdge` writes `PULSES`. -/

@[simp] theorem encoderEdge_pid : (encoderEdge s).regs.pid = s.regs.pid := rfl
@[simp] theorem encoderEdge_ticks : (encoderEdge s).regs.ticks = s.regs.ticks := rfl
@[simp] theorem encoderEdge_pulses : (encoderEdge s).regs.pulses = bump s.regs.pulses := rfl
@[simp] theorem encoderEdge_state : (encoderEdge s).regs.state = s.regs.state := rfl
@[simp] theorem encoderEdge_steer : (encoderEdge s).regs.steer = s.regs.steer := rfl
@[simp] theorem encoderEdge_speedL : (encoderEdge s).regs.speedL = s.regs.speedL := rfl
@[simp] theorem encoderEdge_speedR : (encoderEdge s).regs.speedR = s.regs.speedR := rfl
@[simp] theorem encoderEdge_sense : (encoderEdge s).regs.sense = s.regs.sense := rfl
@[simp] theorem encoderEdge_sensors : (encoderEdge s).regs.sensors = s.regs.sensors := rfl
@[simp] theorem encoderEdge_calActive : (encoderEdge s).regs.calActive = s.regs.calActive := rfl
@[simp] theorem encoderEdge_cfg : (encoderEdge s).cfg = s.cfg := rfl
@[simp] theorem encoderEdge_pending : (encoderEdge s).pending = s.pending := rfl
@[simp] theorem encoderEdge_choices : (encoderEdge s).choices = s.choices := rfl
@[simp] theorem encoderEdge_resp : (encoderEdge s).resp = s.resp := rfl

/-! ### A cycle writes the registers that its rule names (R166). -/

@[simp] theorem cycle_cfg : (cycle q s).cfg = s.cfg := rfl
@[simp] theorem cycle_pending : (cycle q s).pending = s.pending := rfl
@[simp] theorem cycle_choices : (cycle q s).choices = s.choices := rfl
@[simp] theorem cycle_resp : (cycle q s).resp = s.resp := rfl
@[simp] theorem cycle_regs : (cycle q s).regs = cycleRegs s.cfg q s.regs := rfl

@[simp] theorem applyCmd_pid : (applyCmd cfg d r).pid = r.pid := by cases d <;> rfl
@[simp] theorem applyCmd_sense : (applyCmd cfg d r).sense = r.sense := by cases d <;> rfl
@[simp] theorem applyCmd_sensors : (applyCmd cfg d r).sensors = r.sensors := by cases d <;> rfl
@[simp] theorem applyCmd_calActive : (applyCmd cfg d r).calActive = r.calActive := by cases d <;> rfl
@[simp] theorem applyCmd_state : (applyCmd cfg d r).state = r.state := by cases d <;> rfl
@[simp] theorem applyCmd_ticks : (applyCmd cfg d r).ticks = r.ticks := by cases d <;> rfl
@[simp] theorem applyCmd_pulses : (applyCmd cfg d r).pulses = r.pulses := by cases d <;> rfl

@[simp] theorem applyNext_pid : (applyNext n r).pid = r.pid := by cases n <;> rfl
@[simp] theorem applyNext_sense : (applyNext n r).sense = r.sense := by cases n <;> rfl
@[simp] theorem applyNext_sensors : (applyNext n r).sensors = r.sensors := by cases n <;> rfl
@[simp] theorem applyNext_calActive : (applyNext n r).calActive = r.calActive := by cases n <;> rfl
@[simp] theorem applyNext_steer : (applyNext n r).steer = r.steer := by cases n <;> rfl
@[simp] theorem applyNext_speedL : (applyNext n r).speedL = r.speedL := by cases n <;> rfl
@[simp] theorem applyNext_speedR : (applyNext n r).speedR = r.speedR := by cases n <;> rfl
@[simp] theorem applyNext_ticks : (applyNext n r).ticks = r.ticks := by cases n <;> rfl
@[simp] theorem applyNext_pulses : (applyNext n r).pulses = r.pulses := by cases n <;> rfl
@[simp] theorem applyNext_state : (applyNext n r).state = n.getD r.state := by cases n <;> rfl

@[simp] theorem applyRst_pid : (applyRst b r).pid = r.pid := by cases b <;> rfl
@[simp] theorem applyRst_sense : (applyRst b r).sense = r.sense := by cases b <;> rfl
@[simp] theorem applyRst_sensors : (applyRst b r).sensors = r.sensors := by cases b <;> rfl
@[simp] theorem applyRst_calActive : (applyRst b r).calActive = r.calActive := by cases b <;> rfl
@[simp] theorem applyRst_steer : (applyRst b r).steer = r.steer := by cases b <;> rfl
@[simp] theorem applyRst_speedL : (applyRst b r).speedL = r.speedL := by cases b <;> rfl
@[simp] theorem applyRst_speedR : (applyRst b r).speedR = r.speedR := by cases b <;> rfl
@[simp] theorem applyRst_state : (applyRst b r).state = r.state := by cases b <;> rfl
@[simp] theorem applyRst_ticks : (applyRst b r).ticks = if b then 0 else r.ticks := by cases b <;> rfl
@[simp] theorem applyRst_pulses : (applyRst b r).pulses = if b then 0 else r.pulses := by cases b <;> rfl

@[simp] theorem applyRule_pid : (applyRule cfg u r).pid = r.pid := by
  cases u <;> simp [applyRule]
@[simp] theorem applyRule_sense : (applyRule cfg u r).sense = r.sense := by
  cases u <;> simp [applyRule]
@[simp] theorem applyRule_sensors : (applyRule cfg u r).sensors = r.sensors := by
  cases u <;> simp [applyRule]
@[simp] theorem applyRule_calActive : (applyRule cfg u r).calActive = r.calActive := by
  cases u <;> simp [applyRule]
@[simp] theorem cycleRegs_pid : (cycleRegs cfg q r).pid = r.pid := by
  simp [cycleRegs]
@[simp] theorem cycleRegs_sense : (cycleRegs cfg q r).sense = r.sense := by
  simp [cycleRegs]
@[simp] theorem cycleRegs_sensors : (cycleRegs cfg q r).sensors = r.sensors := by
  simp [cycleRegs]
@[simp] theorem cycleRegs_calActive : (cycleRegs cfg q r).calActive = r.calActive := by
  simp [cycleRegs]

end Sys2Proof.Laws
end

