-- ==== Sys2Proof/Laws/Config.lean ====
section
/-! SUPPORT. What a well-formed configuration gives (R7, R165): the ranges of the parameters, a configuration for every
state code below `N_STATES`, and well-formed rules. -/

namespace Sys2Proof.Laws

open Sys2Proof.Machine

/-! ### The parameters of R7 -/

theorem wf_ranges {cfg : Config} (h : cfg.wf = true) :
    (1 ≤ cfg.nPid ∧ cfg.nPid ≤ 8) ∧ (1 ≤ cfg.maxITerm ∧ cfg.maxITerm ≤ 2147418112) ∧ 1 ≤ cfg.scalingFactor ∧
      cfg.steerMax ≤ 255 ∧ cfg.speedMax ≤ 127 ∧ (1 ≤ cfg.crossBandMin ∧ cfg.crossBandMin ≤ 8) ∧
      (1 ≤ cfg.rawW ∧ cfg.rawW ≤ 16) := by
  simp only [Config.wf, Config.rangesOk, Bool.and_eq_true, decide_eq_true_eq] at h
  omega

theorem wf_rom {cfg : Config} (h : cfg.wf = true) : cfg.fsmRom.length = 19 ∧ ∀ c ∈ cfg.fsmRom, c.wf = true := by
  simp only [Config.wf, romWf, Bool.and_eq_true, beq_iff_eq, List.all_eq_true] at h
  exact h.2

/-- The raw range is at most 16 bits wide. -/
theorem pow_rawW_le {cfg : Config} (h : cfg.wf = true) : 2 ^ cfg.rawW ≤ 65536 := by
  obtain ⟨-, -, -, -, -, -, -, h16⟩ := wf_ranges h
  calc 2 ^ cfg.rawW ≤ 2 ^ 16 := Nat.pow_le_pow_right (by decide) h16
    _ = 65536 := by decide

/-- `2^RAW_W - 1` fits the 16 bits in which it is held (R113, log 9). -/
theorem rawMax_toNat {cfg : Config} (h : cfg.wf = true) : (rawMax cfg).toNat = 2 ^ cfg.rawW - 1 := by
  have := pow_rawW_le h
  rw [rawMax, BitVec.toNat_ofNat]
  omega

/-! ### `FSM_ROM` -/

/-- A state code below `N_STATES` has a configuration, and it is well formed (R164, R165). -/
theorem stateCfg_of_wf {s : State} (h : s.cfg.wf = true) (hs : s.regs.state.toNat < nStates) :
    ∃ c, stateCfg s = some c ∧ c.wf = true := by
  obtain ⟨hl, hw⟩ := wf_rom h
  have hb : s.regs.state.toNat < s.cfg.fsmRom.length := by rw [hl]; exact hs
  exact ⟨s.cfg.fsmRom[s.regs.state.toNat], by simp [stateCfg, hb], hw _ (List.getElem_mem hb)⟩

/-- A reserved code has none (R29). -/
theorem stateCfg_reserved {s : State} (h : s.cfg.wf = true) (hs : 19 ≤ s.regs.state.toNat) : stateCfg s = none := by
  obtain ⟨hl, -⟩ := wf_rom h
  simp only [stateCfg, List.getElem?_eq_none_iff]
  omega

/-- Where the rule that `Select` gives comes from (R166). -/
theorem select_mem {band : Nat} {c : StateCfg} {m : Bitmask} {t e : Word} {r : RomRule}
    (h : select band c m t e = some r) :
    c.cross = some r ∨ c.lost = some r ∨ (∃ x ∈ c.thr, x.rule = r) ∨ (∃ x ∈ c.tab, x.rule = r) := by
  unfold select at h
  split at h
  · rename_i r' h1
    obtain rfl : r' = r := by simpa using h
    unfold selectComposite at h1
    split at h1
    · exact .inl h1
    · split at h1
      · exact .inr (.inl h1)
      · cases h1
  · split at h
    · rename_i r' h2
      obtain rfl : r' = r := by simpa using h
      obtain ⟨x, hx, rfl⟩ := Option.map_eq_some_iff.1 h2
      exact .inr (.inr (.inl ⟨x, List.mem_of_find?_eq_some hx, rfl⟩))
    · obtain ⟨x, hx, rfl⟩ := Option.map_eq_some_iff.1 h
      exact .inr (.inr (.inr ⟨x, List.mem_of_find?_eq_some hx, rfl⟩))

/-- A rule of a well-formed state configuration is well formed (R165). -/
theorem select_wf {band : Nat} {c : StateCfg} {m : Bitmask} {t e : Word} {r : RomRule} (hc : c.wf = true)
    (h : select band c m t e = some r) : r.wf = true := by
  simp only [StateCfg.wf, Bool.and_eq_true, List.all_eq_true, Option.all_eq_true] at hc
  obtain ⟨⟨⟨h1, h2⟩, h3⟩, h4⟩ := hc
  rcases select_mem h with h | h | ⟨x, hx, rfl⟩ | ⟨x, hx, rfl⟩
  · exact h1 _ h
  · exact h2 _ h
  · exact h3 _ hx
  · have := h4 _ hx
    simp only [TabEntry.wf, Bool.and_eq_true] at this
    exact this.1.1

/-- The next state of a well-formed rule is a state code (R165 (a)). -/
theorem next_lt {r : RomRule} (h : r.wf = true) {n : StateCode} (hn : r.next = some n) : n.toNat < nStates := by
  simp only [RomRule.wf, RomRule.nextOk, Bool.and_eq_true, Option.all_eq_true, decide_eq_true_eq] at h
  exact h.1 _ hn

/-! ### The command clamps (R174) -/

theorem clampSteer_toInt {cfg : Config} (h : cfg.wf = true) (v : Steering) :
    (clampSteer cfg v).toInt = max (-(cfg.steerMax : Int)) (min cfg.steerMax v.toInt) := by
  obtain ⟨-, -, -, hs, -⟩ := wf_ranges h
  rw [clampSteer, clamp_eq (by omega)]
  exact toInt_ofInt_9 (by omega) (by omega)

theorem clampSpeed_toInt {cfg : Config} (h : cfg.wf = true) (v : Speed) :
    (clampSpeed cfg v).toInt = max (-(cfg.speedMax : Int)) (min cfg.speedMax v.toInt) := by
  obtain ⟨-, -, -, -, hs, -⟩ := wf_ranges h
  rw [clampSpeed, clamp_eq (by omega)]
  exact toInt_ofInt_8 (by omega) (by omega)

end Sys2Proof.Laws
end

