-- ==== Sys2Proof/Laws/Decode.lean ====
section
/-! SUPPORT. What the decoder can answer to a command word, and what the rows of R86 give. -/

namespace Sys2Proof.Laws

@[simp] theorem assemble_opcode (w : CmdWord) (o : Opcode) : (o.assemble w).opcode = some o := by cases o <;> rfl

@[simp] theorem assemble_isCommand (w : CmdWord) (o : Opcode) : (o.assemble w).isCommand = true := by cases o <;> rfl

/-- The decoder on a word whose `op` field is assigned (R86). -/
theorem decodeCommand_of_op {w : CmdWord} {o : Opcode} (h : opField w = o.code) :
    decodeCommand w = if o.mbzOk w then .ok (o.assemble w) else .error .mustBeZero := by
  rw [decodeCommand, h, ofByte_code]

/-- Everything the decoder can answer to a command word (R86, R88). -/
theorem decodeCommand_cases (w : CmdWord) :
    (Opcode.ofByte (opField w) = none ∧ decodeCommand w = .error .reservedOpcode) ∨
    (∃ o : Opcode, opField w = o.code ∧ o.mbzOk w = false ∧ decodeCommand w = .error .mustBeZero) ∨
    (∃ o : Opcode, opField w = o.code ∧ o.mbzOk w = true ∧ decodeCommand w = .ok (o.assemble w)) := by
  cases h : Opcode.ofByte (opField w) with
  | none => exact .inl ⟨rfl, by rw [decodeCommand, h]⟩
  | some o =>
    have hc := (code_of_ofByte h).symm
    cases hm : o.mbzOk w
    · exact .inr (.inl ⟨o, hc, hm, by rw [decodeCommand_of_op hc, hm]; rfl⟩)
    · exact .inr (.inr ⟨o, hc, hm, by rw [decodeCommand_of_op hc, hm]; rfl⟩)

/-- Where an instruction that the decoder reads comes from. -/
theorem decodeCommand_ok {w : CmdWord} {i : Instr} (h : decodeCommand w = .ok i) :
    ∃ o : Opcode, opField w = o.code ∧ o.mbzOk w = true ∧ i = o.assemble w := by
  rcases decodeCommand_cases w with ⟨-, h'⟩ | ⟨o, -, -, h'⟩ | ⟨o, h1, h2, h'⟩ <;> rw [h] at h'
  · cases h'
  · cases h'
  · exact ⟨o, h1, h2, Except.ok.inj h'⟩

/-- A mask of ones keeps a field. -/
theorem and_ones_8 (x : Byte) : x &&& 255#8 = x := BitVec.and_allOnes

theorem and_ones_16 (x : Half) : x &&& 65535#16 = x := BitVec.and_allOnes

end Sys2Proof.Laws
end

