-- ==== Sys2Proof/Laws/Ops.lean ====
section
/-! SUPPORT. Each shared operation said once, and each meaning's cases: everything that it can answer, and when. -/

namespace Sys2Proof.Laws

open Sys2Proof.Machine

/-! ### How a command ends (R12, R262) -/

theorem respond_eq (v : Word) (s : State) : respond v s = .next (answer .ok v s) := rfl

theorem reject_eq (st : Status) (s : State) : reject st s = .next (answer st 0 s) := rfl

/-! ### Indexed registers -/

theorem pidCtx_of_getElem? {s : State} {k : Nat} {c : PidCtx} (h : s.regs.pid[k]? = some c) : pidCtx s k = c := by
  simp [pidCtx, List.getD_eq_getElem?_getD, h]

theorem valid_of_getElem? {s : State} {k : Nat} {c : PidCtx} (h : s.regs.pid[k]? = some c) : valid s k = c.valid := by
  rw [valid, pidCtx_of_getElem? h]

theorem sensor_of_getElem? {s : State} {i : Nat} {x : Sensor} (h : s.regs.sensors[i]? = some x) : sensor s i = x := by
  simp [sensor, List.getD_eq_getElem?_getD, h]

/-- A context that is read back after it is written (R24). -/
theorem pidCtx_setPid {s : State} {k : Nat} (h : k < s.regs.pid.length) (c : PidCtx) (j : Nat) :
    pidCtx (setPid s k c) j = if j = k then c else pidCtx s j := by
  simp only [pidCtx, setPid_pid, List.getD_eq_getElem?_getD, List.getElem?_set, h, if_true]
  by_cases hj : j = k
  · simp [hj]
  · simp [hj, Ne.symm hj]

/-- A sensor's registers that are read back after they are written (R33). -/
theorem sensor_setSensor {s : State} {i : Nat} (h : i < s.regs.sensors.length) (x : Sensor) (j : Nat) :
    sensor (setSensor s i x) j = if j = i then x else sensor s j := by
  simp only [sensor, setSensor_sensors, List.getD_eq_getElem?_getD, List.getElem?_set, h, if_true]
  by_cases hj : j = i
  · simp [hj]
  · simp [hj, Ne.symm hj]

/-! ### Range checks (R85) -/

theorem instanceOk_iff {cfg : Config} {k : Byte} : instanceOk cfg k = true ↔ k.toNat < cfg.nPid :=
  decide_eq_true_iff

theorem sensorOk_iff {i : Byte} : sensorOk i = true ↔ i.toNat < 8 := decide_eq_true_iff

theorem gainOk_iff {g : Half} : gainOk g = true ↔ 0 ≤ g.toInt := decide_eq_true_iff

theorem rawOk_iff {cfg : Config} {v : Half} : rawOk cfg v = true ↔ v.toNat < 2 ^ cfg.rawW :=
  decide_eq_true_iff

/-! ### Guards and the classification law (R110, R171, R172) -/

theorem thrFires_iff {t e : Word} {x : ThrEntry} :
    thrFires t e x = true ↔ x.threshold.toNat < (counterValue t e x.counter).toNat := decide_eq_true_iff

theorem tabFires_iff {m : Bitmask} {x : TabEntry} : tabFires m x = true ↔ m &&& x.mask = x.pattern := by
  simp [tabFires]

theorem dark_iff {x : Sensor} : dark x = true ↔ x.raw.toNat < x.thr.toNat := decide_eq_true_iff

/-! ### The cases of each meaning -/

theorem execRd_cases (addr : Byte) (s : State) :
    (readTarget s.cfg addr = none ∧ execRd addr s = .next (answer .badIndex 0 s)) ∨
    (∃ r, readTarget s.cfg addr = some r ∧ execRd addr s = .next (answer .ok (regRead s r) s)) := by
  unfold execRd
  cases h : readTarget s.cfg addr with
  | none => exact .inl ⟨rfl, rfl⟩
  | some r => exact .inr ⟨r, rfl, rfl⟩

theorem execPidInit_cases (k : Byte) (p i d : Half) (s : State) :
    (instanceOk s.cfg k = false ∧ execPidInit k p i d s = .next (answer .badIndex 0 s)) ∨
    (instanceOk s.cfg k = true ∧ (gainOk p && gainOk i && gainOk d) = false ∧
      execPidInit k p i d s = .next (answer .badOperand 0 s)) ∨
    (instanceOk s.cfg k = true ∧ (gainOk p && gainOk i && gainOk d) = true ∧
      execPidInit k p i d s = .next (answer .ok 0 (setPid s k.toNat (pidInitCtx s.cfg p i d)))) := by
  cases h1 : instanceOk s.cfg k <;> cases h2 : (gainOk p && gainOk i && gainOk d) <;>
    simp [execPidInit, h1, h2, respond_eq, reject_eq, indexOf]

theorem execPidStep_cases (k : Byte) (sp pv : Half) (s : State) :
    (instanceOk s.cfg k = false ∧ execPidStep k sp pv s = .next (answer .badIndex 0 s)) ∨
    (instanceOk s.cfg k = true ∧ valid s k.toNat = false ∧ execPidStep k sp pv s = .next (answer .notReady 0 s)) ∨
    (instanceOk s.cfg k = true ∧ valid s k.toNat = true ∧
      execPidStep k sp pv s = .next (answer .ok (BitVec.ofInt 32 (pidOut s.cfg (pidCtx s k.toNat) sp pv))
        (setPid s k.toNat (pidStepCtx s.cfg (pidCtx s k.toNat) sp pv)))) := by
  cases h1 : instanceOk s.cfg k <;> cases h2 : valid s k.toNat <;>
    simp [execPidStep, h1, h2, respond_eq, reject_eq, indexOf]

theorem execPidRsti_cases (k : Byte) (s : State) :
    (instanceOk s.cfg k = false ∧ execPidRsti k s = .next (answer .badIndex 0 s)) ∨
    (instanceOk s.cfg k = true ∧ valid s k.toNat = false ∧ execPidRsti k s = .next (answer .notReady 0 s)) ∨
    (instanceOk s.cfg k = true ∧ valid s k.toNat = true ∧
      execPidRsti k s = .next (answer .ok 0 (setPid s k.toNat { pidCtx s k.toNat with sumError := 0 }))) := by
  cases h1 : instanceOk s.cfg k <;> cases h2 : valid s k.toNat <;>
    simp [execPidRsti, h1, h2, respond_eq, reject_eq, indexOf]

theorem execFsmCycle_cases (s : State) :
    (calActive s = true ∧ execFsmCycle s = .next (answer .notReady 0 s)) ∨
    (calActive s = false ∧ stateCfg s = none ∧ execFsmCycle s = .refused .reservedStateCode) ∨
    (calActive s = false ∧ ∃ c, stateCfg s = some c ∧
      execFsmCycle s = .next (answer .ok (cmdOut (cycle c s)) (cycle c s))) := by
  unfold execFsmCycle
  cases h1 : calActive s
  · cases h2 : stateCfg s with
    | none => exact .inr (.inl ⟨rfl, rfl, rfl⟩)
    | some c => exact .inr (.inr ⟨rfl, c, rfl, rfl⟩)
  · exact .inl ⟨rfl, rfl⟩

theorem execClsSample_cases (i : Byte) (raw : Half) (s : State) :
    (sensorOk i = false ∧ execClsSample i raw s = .next (answer .badIndex 0 s)) ∨
    (sensorOk i = true ∧ rawOk s.cfg raw = false ∧ execClsSample i raw s = .next (answer .badOperand 0 s)) ∨
    (sensorOk i = true ∧ rawOk s.cfg raw = true ∧ execClsSample i raw s =
      .next (answer .ok 0 (setSensor s i.toNat { sensor s i.toNat with raw := raw }))) := by
  cases h1 : sensorOk i <;> cases h2 : rawOk s.cfg raw <;>
    simp [execClsSample, h1, h2, respond_eq, reject_eq, indexOf]

theorem execClsClassify_cases (s : State) :
    (calActive s = true ∧ execClsClassify s = .next (answer .notReady 0 s)) ∨
    (calActive s = false ∧ execClsClassify s =
      .next (answer .ok ((classify s.regs.sensors).setWidth 32) (setSense s (classify s.regs.sensors)))) := by
  cases h : calActive s <;> simp [execClsClassify, h, respond_eq, reject_eq]

theorem execCalBegin_cases (s : State) :
    (calActive s = true ∧ execCalBegin s = .next (answer .notReady 0 s)) ∨
    (calActive s = false ∧
      execCalBegin s = .next (answer .ok 0 (setCalActive (mapSensors s (beginSensor s.cfg)) true))) := by
  cases h : calActive s <;> simp [execCalBegin, h, respond_eq, reject_eq]

theorem execCalUpdate_cases (s : State) :
    (calActive s = false ∧ execCalUpdate s = .next (answer .notReady 0 s)) ∨
    (calActive s = true ∧ execCalUpdate s = .next (answer .ok 0 (mapSensors s updateSensor))) := by
  cases h : calActive s <;> simp [execCalUpdate, h, respond_eq, reject_eq]

theorem execCalEnd_cases (s : State) :
    (calActive s = false ∧ execCalEnd s = .next (answer .notReady 0 s)) ∨
    (calActive s = true ∧ execCalEnd s = .next (answer .ok 0 (setCalActive (mapSensors s endSensor) false))) := by
  cases h : calActive s <;> simp [execCalEnd, h, respond_eq, reject_eq]

theorem execCalLoad_cases (i : Byte) (lo hi : Half) (s : State) :
    (sensorOk i = false ∧ execCalLoad i lo hi s = .next (answer .badIndex 0 s)) ∨
    (sensorOk i = true ∧ (rawOk s.cfg lo && rawOk s.cfg hi) = false ∧
      execCalLoad i lo hi s = .next (answer .badOperand 0 s)) ∨
    (sensorOk i = true ∧ (rawOk s.cfg lo && rawOk s.cfg hi) = true ∧ calActive s = true ∧
      execCalLoad i lo hi s = .next (answer .notReady 0 s)) ∨
    (sensorOk i = true ∧ (rawOk s.cfg lo && rawOk s.cfg hi) = true ∧ calActive s = false ∧
      execCalLoad i lo hi s = .next (answer .ok 0 (setSensor s i.toNat (loadSensor lo hi (sensor s i.toNat))))) := by
  cases h1 : sensorOk i <;> cases h2 : (rawOk s.cfg lo && rawOk s.cfg hi) <;> cases h3 : calActive s <;>
    simp [execCalLoad, h1, h2, h3, respond_eq, reject_eq, indexOf]

end Sys2Proof.Laws
end

