-- ==== Sys2Proof/Laws/PerInstr.lean ====
section
/-! SUPPORT. Statements about every instruction, proved one constructor at a time: the encoding of an instruction is a
request of its own row of the opcode table. -/

namespace Sys2Proof.Laws

/-- A word whose fields are zero wherever its row's mask has ones below the `op` field is in that row (R87). -/
theorem row_of_fields {o : Opcode} (k mk : Byte) (a ma b mb c mc : Half) (hm : o.mask = commandWord 0xFF mk ma mb mc)
    (hp : o.pattern = commandWord o.code 0 0 0 0) (hk : k &&& mk = 0) (ha : a &&& ma = 0) (hb : b &&& mb = 0)
    (hc : c &&& mc = 0) : commandWord o.code k a b c &&& o.mask = o.pattern := by
  rw [hm, hp, commandWord_and, hk, ha, hb, hc, show o.code &&& 0xFF = o.code from BitVec.and_allOnes]

/-- A bitmask operand leaves the must-be-zero byte of `SENSE.LD` zero (R85). -/
theorem maskField_and_high (m : Byte) : maskField m &&& 0xFF00 = 0 := by
  apply BitVec.eq_of_getLsbD_eq
  intro i hi
  rw [BitVec.getLsbD_and, maskField_getLsbD]
  by_cases h : i < 8
  · have : (0xFF00 : Half).getLsbD i = false := by interval_cases i <;> rfl
    rw [this, Bool.and_false]
    simp
  · simp [h]

namespace EncodeMatchesRow

/-- A command's encoding is a command word of its row of R87; an event's is its value of the event port (R83), the
reset's its value of the reset line (R84). -/
def Statement (i : Instr) : Prop :=
  match i.opcode with
  | some o => ∃ w, encode i = .command w ∧ w &&& o.mask = o.pattern
  | none => encode i = .event 0b01 ∨ encode i = .event 0b10 ∨ encode i = .event 0b11 ∨ encode i = .resetLine 1

theorem nop : Statement .nop :=
  ⟨_, rfl, row_of_fields (o := .nop) _ 0xFF _ 0xFFFF _ 0xFFFF _ 0xFFFF rfl rfl
    rfl rfl rfl rfl⟩

theorem rd (addr : Byte) : Statement (.rd addr) :=
  ⟨_, rfl, row_of_fields (o := .rd) _ 0 _ 0xFFFF _ 0xFFFF _ 0xFFFF rfl rfl
    BitVec.and_zero rfl rfl rfl⟩

theorem pidInit (k : Byte) (p i d : Half) : Statement (.pidInit k p i d) :=
  ⟨_, rfl, row_of_fields (o := .pidInit) _ 0 _ 0 _ 0 _ 0 rfl rfl
    BitVec.and_zero BitVec.and_zero BitVec.and_zero BitVec.and_zero⟩

theorem pidStep (k : Byte) (sp pv : Half) : Statement (.pidStep k sp pv) :=
  ⟨_, rfl, row_of_fields (o := .pidStep) _ 0 _ 0 _ 0 _ 0xFFFF rfl rfl
    BitVec.and_zero BitVec.and_zero BitVec.and_zero rfl⟩

theorem pidRsti (k : Byte) : Statement (.pidRsti k) :=
  ⟨_, rfl, row_of_fields (o := .pidRsti) _ 0 _ 0xFFFF _ 0xFFFF _ 0xFFFF rfl rfl
    BitVec.and_zero rfl rfl rfl⟩

theorem fsmCycle : Statement .fsmCycle :=
  ⟨_, rfl, row_of_fields (o := .fsmCycle) _ 0xFF _ 0xFFFF _ 0xFFFF _ 0xFFFF rfl rfl
    rfl rfl rfl rfl⟩

theorem senseLd (m : Byte) : Statement (.senseLd m) :=
  ⟨_, rfl, row_of_fields (o := .senseLd) _ 0xFF _ 0xFFFF _ 0xFFFF _ 0xFF00 rfl rfl
    rfl rfl rfl (maskField_and_high m)⟩

theorem clsSample (i : Byte) (raw : Half) : Statement (.clsSample i raw) :=
  ⟨_, rfl, row_of_fields (o := .clsSample) _ 0 _ 0xFFFF _ 0xFFFF _ 0 rfl rfl
    BitVec.and_zero rfl rfl BitVec.and_zero⟩

theorem clsClassify : Statement .clsClassify :=
  ⟨_, rfl, row_of_fields (o := .clsClassify) _ 0xFF _ 0xFFFF _ 0xFFFF _ 0xFFFF rfl rfl
    rfl rfl rfl rfl⟩

theorem calBegin : Statement .calBegin :=
  ⟨_, rfl, row_of_fields (o := .calBegin) _ 0xFF _ 0xFFFF _ 0xFFFF _ 0xFFFF rfl rfl
    rfl rfl rfl rfl⟩

theorem calUpdate : Statement .calUpdate :=
  ⟨_, rfl, row_of_fields (o := .calUpdate) _ 0xFF _ 0xFFFF _ 0xFFFF _ 0xFFFF rfl rfl
    rfl rfl rfl rfl⟩

theorem calEnd : Statement .calEnd :=
  ⟨_, rfl, row_of_fields (o := .calEnd) _ 0xFF _ 0xFFFF _ 0xFFFF _ 0xFFFF rfl rfl
    rfl rfl rfl rfl⟩

theorem calLoad (i : Byte) (lo hi : Half) : Statement (.calLoad i lo hi) :=
  ⟨_, rfl, row_of_fields (o := .calLoad) _ 0 _ 0 _ 0 _ 0xFFFF rfl rfl
    BitVec.and_zero BitVec.and_zero BitVec.and_zero rfl⟩

theorem evTick : Statement .evTick := .inl rfl

theorem evEnc : Statement .evEnc := .inr (.inl rfl)

theorem evBoth : Statement .evBoth := .inr (.inr (.inl rfl))

theorem reset : Statement .reset := .inr (.inr (.inr rfl))

end EncodeMatchesRow

end Sys2Proof.Laws
end

