-- ==== Sys2Proof/Laws/Pid.lean ====
section
/-! SUPPORT. The arithmetic of the PID controller: the error as an integer, truncating division, the ranges of the sum and
of the output, and that the registers that hold them hold them exactly. -/

namespace Sys2Proof.Laws

open Sys2Proof.Machine

/-- The error is the exact difference of the two operands (R134). -/
theorem pidError_eq (sp pv : Half) : pidError sp pv = sp.toInt - pv.toInt := rfl

/-- Truncating division of a number that is not negative by one that is positive (R12). -/
theorem tdiv_bounds {a b : Int} (ha : 0 ≤ a) (hb : 1 ≤ b) : 0 ≤ tdiv a b ∧ tdiv a b ≤ a ∧ tdiv a b * b ≤ a := by
  unfold tdiv
  rw [Int.tdiv_eq_ediv_of_nonneg ha]
  exact ⟨Int.ediv_nonneg ha (by omega), Int.ediv_le_self _ ha, Int.ediv_mul_le _ (by omega)⟩

/-- The sum that `PID.STEP` commits is within its bound (R136). -/
theorem pidSum_bounds {c : PidCtx} (h : 0 ≤ c.maxSumError.toInt) (err : Int) :
    -c.maxSumError.toInt ≤ pidSum c err ∧ pidSum c err ≤ c.maxSumError.toInt := by
  unfold pidSum
  simp only
  split <;> [skip; split] <;> omega

/-- The output is within `±INT16_MAX` (R139). -/
theorem pidOut_bounds (cfg : Config) (c : PidCtx) (sp pv : Half) :
    -32767 ≤ pidOut cfg c sp pv ∧ pidOut cfg c sp pv ≤ 32767 :=
  clamp_bounds (by decide)

/-- The bounds of a context as R25 has it are not negative. -/
theorem bounded_bounds_nonneg {cfg : Config} {c : PidCtx} (hb : PidCtx.bounded cfg c) :
    0 ≤ c.maxError.toInt ∧ 0 ≤ c.maxSumError.toInt := by
  obtain ⟨h1, h2, -, h4, h5, -⟩ := hb
  have b1 := tdiv_bounds (a := int16Max) (b := c.pFactor.toInt + 1) (by decide) (by omega)
  have b2 := tdiv_bounds (a := cfg.maxITerm) (b := c.iFactor.toInt + 1) (by omega) (by omega)
  omega

/-- `SUM_ERROR` holds the committed sum exactly (R11, R136). -/
theorem pidStepCtx_sumError {c : PidCtx} (h : 0 ≤ c.maxSumError.toInt) (cfg : Config) (sp pv : Half) :
    (pidStepCtx cfg c sp pv).sumError.toInt = pidSum c (pidError sp pv) := by
  have hs := pidSum_bounds h (pidError sp pv)
  have hb := toInt_bounds_32 c.maxSumError
  exact toInt_ofInt_32 (by omega) (by omega)

/-- `OUT` holds the output exactly (R11, R139). -/
theorem pidStepCtx_out (cfg : Config) (c : PidCtx) (sp pv : Half) :
    (pidStepCtx cfg c sp pv).out.toInt = pidOut cfg c sp pv := by
  have := pidOut_bounds cfg c sp pv
  exact toInt_ofInt_16 (by omega) (by omega)

/-- So does the response (R133). -/
theorem pidOut_response (cfg : Config) (c : PidCtx) (sp pv : Half) :
    (BitVec.ofInt 32 (pidOut cfg c sp pv)).toInt = pidOut cfg c sp pv := by
  have := pidOut_bounds cfg c sp pv
  exact toInt_ofInt_32 (by omega) (by omega)

/-- `MAX_ERROR` holds its quotient exactly (R11, R132). -/
theorem pidInitCtx_maxError (cfg : Config) {p : Half} (i d : Half) (hp : 0 ≤ p.toInt) :
    (pidInitCtx cfg p i d).maxError.toInt = tdiv 32767 (p.toInt + 1) := by
  have b := tdiv_bounds (a := 32767) (b := p.toInt + 1) (by decide) (by omega)
  exact toInt_ofInt_16 (x := tdiv 32767 (p.toInt + 1)) (by omega) (by omega)

/-- `MAX_SUM_ERROR` holds its quotient exactly (R11, R132). -/
theorem pidInitCtx_maxSumError {cfg : Config} (h : cfg.wf = true) {i : Half} (p d : Half) (hi : 0 ≤ i.toInt) :
    (pidInitCtx cfg p i d).maxSumError.toInt = tdiv cfg.maxITerm (i.toInt + 1) := by
  obtain ⟨-, ⟨-, hm⟩, -⟩ := wf_ranges h
  have b := tdiv_bounds (a := cfg.maxITerm) (b := i.toInt + 1) (by omega) (by omega)
  exact toInt_ofInt_32 (x := tdiv cfg.maxITerm (i.toInt + 1)) (by omega) (by omega)

/-- Every context of a state that meets the invariant is as R25 says, and there is one for each index below `N_PID`. -/
theorem pid_of_inv {s : State} (h : State.Inv s) {k : Nat} {c : PidCtx} (hc : s.regs.pid[k]? = some c) :
    PidCtx.wf s.cfg c ∧ k < s.cfg.nPid := by
  obtain ⟨h1, h2⟩ := List.getElem?_eq_some_iff.1 hc
  exact ⟨h.2.2.1 _ (h2 ▸ List.getElem_mem _), by rw [← h.2.1]; exact h1⟩

theorem pidCtx_of_inv {s : State} (h : State.Inv s) {k : Nat} (hk : k < s.cfg.nPid) :
    s.regs.pid[k]? = some (pidCtx s k) := by
  have hl : k < s.regs.pid.length := by rw [h.2.1]; exact hk
  have e := List.getElem?_eq_getElem hl
  rw [pidCtx_of_getElem? e, e]

/-- The same for the sensors (R33). -/
theorem sensor_of_inv {s : State} (h : State.Inv s) {i : Nat} (hi : i < 8) :
    s.regs.sensors[i]? = some (sensor s i) ∧ Sensor.wf s.cfg (sensor s i) := by
  have hl : i < s.regs.sensors.length := by rw [h.2.2.2.2.2.2.2.2.2.2.1]; exact hi
  have e := List.getElem?_eq_getElem hl
  rw [sensor_of_getElem? e]
  exact ⟨e, h.2.2.2.2.2.2.2.2.2.2.2 _ (List.getElem_mem _)⟩

end Sys2Proof.Laws
end

