-- ==== Sys2Proof/Laws/Ports.lean ====
section
/-! SUPPORT. What a fetch can find at the ports, and what the step makes of one request. -/

namespace Sys2Proof.Laws

open Sys2Proof.Machine

/-- Serving one request is performing it: what the step makes of it is what `perform` says. -/
theorem serve_perform (r : Request) (s : State) :
    (match serve r s with
      | .idle s' => Host.Outcome.next s'
      | .operation i s' => exec i s'
      | .illegal s' => rejectIllegal s') = perform r s := by
  unfold serve perform
  cases decode r with
  | ok i => rfl
  | error e => cases e <;> rfl

/-- The request served first is one of those made (R69), whatever the free value. -/
theorem firstServed_mem (n : Nat) (r : Request) (rs : List Request) : firstServed n r rs ∈ r :: rs := by
  have h : Config.freeOrder n % (rs.length + 1) < (r :: rs).length :=
    lt_of_lt_of_eq (Nat.mod_lt _ (Nat.succ_pos _)) (by simp)
  rw [firstServed, List.getD_eq_getElem?_getD, List.getElem?_eq_getElem h]
  exact List.getElem_mem _

/-- Everything a fetch can find (R66, R69, R276). -/
theorem fetch_cases (s : State) :
    (s.pending = [] ∧ fetch s = .idle { s with resp := none }) ∨
    ∃ p ps, s.pending = p :: ps ∧
      ((requests p = [] ∧ fetch s = .idle { s with pending := ps, resp := none }) ∨
        (∃ r, requests p = [r] ∧ fetch s = serve r { s with pending := ps, resp := none }) ∨
        (2 ≤ (requests p).length ∧ ∃ r ∈ requests p, fetch s =
          serve r { s with pending := remaining (withdraw p r) ps, choices := s.choices + 1, resp := none })) := by
  cases hp : s.pending with
  | nil => exact .inl ⟨rfl, by simp only [fetch, hp]⟩
  | cons p ps =>
    refine .inr ⟨p, ps, rfl, ?_⟩
    match hq : requests p with
    | [] => exact .inl ⟨rfl, by simp only [fetch, hp, hq]⟩
    | [r] => exact .inr (.inl ⟨r, rfl, by simp only [fetch, hp, hq]⟩)
    | r :: r' :: rs =>
      exact .inr (.inr ⟨by simp, _, firstServed_mem s.choices r (r' :: rs), by simp only [fetch, hp, hq]⟩)

/-- The step from what the fetch finds, in a well-formed configuration. -/
theorem step_of_wf {s : State} (h : s.cfg.wf = true) :
    step s = (match fetch s with
      | .idle s' => .next s'
      | .operation i s' => exec i s'
      | .illegal s' => rejectIllegal s') := by
  refine Eq.trans (show step s = _ from if_pos h) ?_
  cases fetch s <;> rfl

/-- The four values of the event port and the two of the reset line. -/
theorem event_values : ∀ e : BitVec 2, e = 0 ∨ e = 1 ∨ e = 2 ∨ e = 3 := by decide

theorem reset_values : ∀ r : BitVec 1, r = 0 ∨ r = 1 := by decide

end Sys2Proof.Laws
end

