-- ==== Sys2Proof/Tests/Slice0.lean ====
section
/-! SUPPORT. The model's own tests. Expected values are those of the spec: the vectors of 95_test_vectors.md and the
encodings of 30_encoding.md, named in each test. Then a witness for the hypotheses of every statement that has some. -/

namespace Sys2Proof.Tests

open Sys2Proof.Machine

/-! ### Well-formedness: an ill-formed term for each check, which the check refuses -/

/-- A rule without command, next state or counter reset. -/
def quiet : RomRule := { cmd := none, next := none, rst := false }

/-- A rule with a command. -/
def moving : RomRule := { quiet with cmd := drive 0 10 10 }

/-- A state configuration without any guard. -/
def emptyCfg : StateCfg := { cross := none, lost := none, thr := [], tab := [] }

/-- A ROM of 19 copies of one configuration. -/
def romOf (c : StateCfg) : List StateCfg := List.replicate 19 c

/-- The default configuration with another ROM. -/
def withRom (rom : List StateCfg) : Config := { defaultConfig with fsmRom := rom }

theorem test_default_config_accepted : defaultConfig.wf = true := by decide +kernel

theorem test_empty_rom_accepted : (withRom (romOf emptyCfg)).wf = true := by decide +kernel

theorem test_next_out_of_range_refused : RomRule.wf { quiet with next := some 19 } = false := by decide

theorem test_rst_without_next_refused : RomRule.wf { quiet with rst := true } = false := by decide

theorem test_table_entry_without_command_refused :
    TabEntry.wf { mask := 0xFF, pattern := 0x18, rule := quiet } = false := by decide

theorem test_pattern_outside_mask_refused :
    TabEntry.wf { mask := 0x0F, pattern := 0x18, rule := moving } = false := by decide

theorem test_bad_cross_rule_refused : StateCfg.wf { emptyCfg with cross := some { quiet with rst := true } } = false := by
  decide

theorem test_bad_lost_rule_refused : StateCfg.wf { emptyCfg with lost := some { quiet with next := some 31 } } = false := by
  decide

theorem test_bad_threshold_rule_refused :
    StateCfg.wf { emptyCfg with thr := [{ counter := .ticks, threshold := 5, rule := { quiet with next := some 20 } }] } =
      false := by decide

theorem test_bad_table_refused :
    StateCfg.wf { emptyCfg with tab := [{ mask := 0xFF, pattern := 0, rule := quiet }] } = false := by decide

theorem test_short_rom_refused : romWf (List.replicate 18 emptyCfg) = false := by decide

theorem test_bad_state_refused : romWf (List.replicate 18 emptyCfg ++
    [{ emptyCfg with cross := some { quiet with rst := true } }]) = false := by decide

theorem test_parameter_ranges_refused :
    Config.rangesOk { defaultConfig with nPid := 0 } = false ∧ Config.rangesOk { defaultConfig with nPid := 9 } = false ∧
    Config.rangesOk { defaultConfig with maxITerm := 0 } = false ∧
    Config.rangesOk { defaultConfig with maxITerm := 2147418113 } = false ∧
    Config.rangesOk { defaultConfig with scalingFactor := 0 } = false ∧
    Config.rangesOk { defaultConfig with steerMax := 256 } = false ∧
    Config.rangesOk { defaultConfig with speedMax := 128 } = false ∧
    Config.rangesOk { defaultConfig with crossBandMin := 0 } = false ∧
    Config.rangesOk { defaultConfig with crossBandMin := 9 } = false ∧
    Config.rangesOk { defaultConfig with rawW := 0 } = false ∧
    Config.rangesOk { defaultConfig with rawW := 17 } = false := by decide +kernel

theorem test_indices_refused :
    (Instr.rd 0x09).wellFormed defaultConfig = false ∧ (Instr.pidInit 2 1 1 1).wellFormed defaultConfig = false ∧
    (Instr.pidStep 2 0 0).wellFormed defaultConfig = false ∧ (Instr.pidRsti 2).wellFormed defaultConfig = false ∧
    (Instr.clsSample 8 5).wellFormed defaultConfig = false ∧
    (Instr.calLoad 8 0 0).wellFormed defaultConfig = false := by decide

theorem test_operands_refused :
    (Instr.pidInit 0 0xFFFF 0 0).wellFormed defaultConfig = false ∧
    (Instr.pidInit 0 0 0x8000 0).wellFormed defaultConfig = false ∧
    (Instr.pidInit 0 0 0 0xFFFF).wellFormed defaultConfig = false ∧
    (Instr.clsSample 0 1024).wellFormed defaultConfig = false ∧
    (Instr.calLoad 0 1024 0).wellFormed defaultConfig = false ∧
    (Instr.calLoad 0 0 1024).wellFormed defaultConfig = false := by decide

/-! ### Decoding: a word of every row, written out from R81, R86 (commands), R83 (events) and R84 (reset) -/

theorem test_decode_nop : decodeTableWord 64 0x0000000000000000 = some .nop := by decide

theorem test_decode_rd : decodeTableWord 64 0x019F000000000000 = some (.rd 0x9F) := by decide

theorem test_decode_pid_init : decodeTableWord 64 0x1001010000100200 = some (.pidInit 1 0x0100 0x0010 0x0200) := by decide

theorem test_decode_pid_step : decodeTableWord 64 0x11000064FFFF0000 = some (.pidStep 0 100 0xFFFF) := by decide

theorem test_decode_pid_rsti : decodeTableWord 64 0x1201000000000000 = some (.pidRsti 1) := by decide

theorem test_decode_fsm_cycle : decodeTableWord 64 0x2000000000000000 = some .fsmCycle := by decide

theorem test_decode_sense_ld : decodeTableWord 64 0x2100000000000018 = some (.senseLd 0x18) := by decide

theorem test_decode_cls_sample : decodeTableWord 64 0x30030000000000C7 = some (.clsSample 3 199) := by decide

theorem test_decode_cls_classify : decodeTableWord 64 0x3100000000000000 = some .clsClassify := by decide

theorem test_decode_cal_begin : decodeTableWord 64 0x3200000000000000 = some .calBegin := by decide

theorem test_decode_cal_update : decodeTableWord 64 0x3300000000000000 = some .calUpdate := by decide

theorem test_decode_cal_end : decodeTableWord 64 0x3400000000000000 = some .calEnd := by decide

theorem test_decode_cal_load : decodeTableWord 64 0x35000064012C0000 = some (.calLoad 0 100 300) := by decide

theorem test_decode_events : decodeTableWord 2 0b01 = some .evTick ∧ decodeTableWord 2 0b10 = some .evEnc ∧
    decodeTableWord 2 0b11 = some .evBoth := by decide

theorem test_decode_reset : decodeTableWord 1 1 = some .reset := by decide

/-- V-DEC-1 to V-DEC-8, V-DEC-14 to V-DEC-17: reserved opcodes, and must-be-zero bits that are not. -/
theorem test_reserved_words :
    [0xFFFFFFFFFFFFFFFF, 0x0200000000000000, 0x1300000000000000, 0x3600000000000000].map decodeCommand =
      List.replicate 4 (.error .reservedOpcode) ∧
    [0x1205000100000000, 0x35000064012C0001, 0x3000000100000005, 0x3100000000000001, 0x3201000000000000,
      0x2100000000000100, 0x0001000000000000, 0x0105000000000001].map decodeCommand =
      List.replicate 8 (.error .mustBeZero) := by decide

/-! ### Single operations -/

/-- The response of an outcome. -/
def responseOf : Result → Option Response
  | .next t => t.resp
  | _ => none

/-- What a view of the registers shows after an outcome. -/
def viewOf {α : Type} (f : Regs → α) : Result → Option α
  | .next t => some (f t.regs)
  | _ => none

/-- The response `(OK, v)`. -/
def ok (v : Word) : Option Response := some { status := .ok, value := v }

/-- The rejection with status `st`. -/
def rejected (st : Status) : Option Response := some { status := st, value := 0 }

/-- Instance 0 after `PID.INIT 0, 10, 0, 0`. -/
def tuned : State := setPid State.reset 0 (pidInitCtx defaultConfig 10 0 0)

/-- Inside a calibration session. -/
def inSession : State := setCalActive State.reset true

/-- Sensor 0 calibrated to 100 and 300, with this reading. -/
def calibrated (raw : Half) : State := setSensor State.reset 0 { raw := raw, cmin := 100, cmax := 300, thr := 200 }

/-- The inputs of a cycle: a state code, a bitmask and the counters. -/
def cycleStart (c : StateCode) (m : Bitmask) (t e : Word) : State :=
  { State.reset with regs := { State.reset.regs with state := c, sense := m, ticks := t, pulses := e } }

/-- V-RD-35. -/
theorem test_nop : responseOf (exec .nop State.reset) = ok 0 := by decide

/-- S-C: `MAX_ERROR` after `PID.INIT 0, 10, 0, 0` reads 2978. -/
theorem test_rd_max_error : responseOf (exec (.rd 0x13) tuned) = ok 0x00000BA2 := by decide

/-- V-RD-30: no instance 2 with `N_PID = 2`. -/
theorem test_rd_unmapped : responseOf (exec (.rd 0x20) tuned) = rejected .badIndex := by decide

/-- V-INIT-3. -/
theorem test_pid_init : viewOf (fun r => r.pid[1]?.map (fun c => (c.maxError, c.maxSumError, c.valid)))
    (exec (.pidInit 1 256 16 512) State.reset) = some (some (127, 63161283, true)) := by decide

/-- V-INIT-11: `BAD_INDEX` before `BAD_OPERAND`. -/
theorem test_pid_init_rejected : responseOf (exec (.pidInit 255 0xFFFF 0xFFFF 0xFFFF) State.reset) =
    rejected .badIndex := by decide

/-- S-C: the output is the negative saturation bound, scaled: `tdiv(-32767, 128) = -255`. -/
theorem test_pid_step : responseOf (exec (.pidStep 0 0 2979) tuned) = ok 0xFFFFFF01 := by decide

/-- V-STEP-2 on the context of V-STEP-1: inside the clamp, `tdiv(-29780, 128) = -232`, `SUM_ERROR = -5957`. -/
theorem test_pid_step_inside_clamp :
    viewOf (fun r => r.pid[0]?.map (fun c => (c.out.toInt, c.sumError.toInt, c.lastPv.toInt)))
      (exec (.pidStep 0 0 2978) (setPid State.reset 0
        { pidInitCtx defaultConfig 10 0 0 with sumError := BitVec.ofInt 32 (-2979), lastPv := 2979 })) =
    some (some (-232, -5957, 2978)) := by decide

/-- V-RSTI-1: only the sum is cleared. -/
theorem test_pid_rsti : viewOf (fun r => r.pid[0]?.map (fun c => (c.sumError, c.lastPv, c.pFactor)))
    (exec (.pidRsti 0) (setPid State.reset 0 { pidInitCtx defaultConfig 10 0 0 with sumError := 9, lastPv := 2979 })) =
    some (some (0, 2979, 10)) := by decide

/-- V-RSTI-3. -/
theorem test_pid_rsti_not_ready : responseOf (exec (.pidRsti 1) tuned) = rejected .notReady := by decide

/-- S-B: the bitmask 0b00000010 in `StraightLine`. -/
theorem test_fsm_cycle : responseOf (exec .fsmCycle (cycleStart 0 0x02 50 9)) = ok 0x02556428 := by decide +kernel

/-- V-FSM-24: a transition without counter reset carries the counters over. -/
theorem test_fsm_cycle_carries_counters : viewOf (fun r => (r.state, r.ticks, r.pulses))
    (exec .fsmCycle (cycleStart 4 0x18 101 7)) = some (5, 101, 7) := by decide +kernel

/-- V-SLD-5: accepted inside a session. -/
theorem test_sense_ld : viewOf Regs.sense (exec (.senseLd 0x81) inSession) = some 0x81 := by decide

/-- V-CLS-6: the reading 1023. -/
theorem test_cls_sample : viewOf (fun r => r.sensors[0]?.map (·.raw)) (exec (.clsSample 0 1023) State.reset) =
    some (some 1023) := by decide

/-- V-CLS-6: 1024 is no reading of 10 bits. -/
theorem test_cls_sample_rejected : responseOf (exec (.clsSample 0 1024) State.reset) = rejected .badOperand := by decide

/-- S-D: a reading of 199 is below the threshold 200. -/
theorem test_cls_classify_dark : responseOf (exec .clsClassify (calibrated 199)) = ok 0x00000001 := by decide

/-- R110: a reading equal to the threshold is light. -/
theorem test_cls_classify_equal_is_light : responseOf (exec .clsClassify (calibrated 200)) = ok 0x00000000 := by decide

/-- V-CAL-2: `CMIN = 1023`, `CMAX = 0`. -/
theorem test_cal_begin : viewOf (fun r => (r.calActive, r.sensors[7]?.map (fun x => (x.cmin, x.cmax))))
    (exec .calBegin State.reset) = some (true, some (1023, 0)) := by decide

/-- R114: the reading is folded into both bounds, each its own way. -/
theorem test_cal_update : viewOf (fun r => r.sensors[0]?.map (fun x => (x.cmin, x.cmax)))
    (exec .calUpdate (setSensor inSession 0 { raw := 50, cmin := 100, cmax := 300, thr := 0 })) =
    some (some (50, 300)) := by decide

/-- V-CAL-2: with no update the threshold is `(1023 + 0) / 2 = 511`. -/
theorem test_cal_end : viewOf (fun r => (r.calActive, r.sensors[0]?.map (·.thr)))
    (exec .calEnd (setSensor inSession 0 { raw := 0, cmin := 1023, cmax := 0, thr := 0 })) = some (false, some 511) := by
  decide

/-- V-CAL-4: a minimum above the maximum is accepted. -/
theorem test_cal_load : viewOf (fun r => r.sensors[0]?.map (fun x => (x.cmin, x.cmax, x.thr)))
    (exec (.calLoad 0 300 100) State.reset) = some (some (300, 100, 200)) := by decide

/-- V-DEC-12: `BAD_OPERAND` before `NOT_READY`. -/
theorem test_cal_load_rejected : responseOf (exec (.calLoad 0 2000 0) inSession) = rejected .badOperand := by decide

/-- V-EV-6: a counter at its maximum stays there. -/
theorem test_ev_tick_saturates : viewOf (fun r => (r.ticks, r.pulses)) (exec .evTick (cycleStart 0 0 0xFFFFFFFF 7)) =
    some (0xFFFFFFFF, 7) := by decide

/-- V-EV-2. -/
theorem test_ev_enc : viewOf (fun r => (r.ticks, r.pulses)) (exec .evEnc State.reset) = some (0, 1) := by decide

/-- V-EV-3. -/
theorem test_ev_both : viewOf (fun r => (r.ticks, r.pulses)) (exec .evBoth (cycleStart 0 0 5 0)) = some (6, 1) := by
  decide

/-- V-RST-1: after reset instance 0 is not valid. -/
theorem test_reset : viewOf id (exec .reset tuned) = some State.reset.regs := by decide

/-! ### Steps on a fetched word -/

theorem test_step_runs_command_word : responseOf (step (tuned.withFetchWord 64 0x110000000BA30000)) = ok 0xFFFFFF01 := by
  decide +kernel

theorem test_step_runs_event : viewOf Regs.ticks (step (State.reset.withFetchWord 2 0b01)) = some 1 := by decide +kernel

theorem test_step_runs_reset : viewOf (·.pid[0]?.map (·.valid)) (step (tuned.withFetchWord 1 1)) = some (some false) := by
  decide +kernel

theorem test_step_rejects_illegal_word : responseOf (step (State.reset.withFetchWord 64 0x2200000000000000)) =
    rejected .illegalOp := by decide +kernel

/-! ### Witnesses: the hypotheses of each statement can be met -/

/-- An instant that carries a command, both events and a reset. -/
def busy : Presentation := { cmd := some 0x2000000000000000, ev := 0b11, rst := 1 }

/-- A state in which the host presents these instants. -/
def presented (ps : List Presentation) : State := { tuned with pending := ps }

/-- The machine with 8 instances and a reset of all their registers. -/
def eightInstances : State :=
  { State.reset with cfg := { defaultConfig with nPid := 8 }, regs := Regs.reset 8 }

theorem witness_inv : ∀ s ∈ [State.reset, tuned, inSession, calibrated 199, eightInstances], State.Inv s := by
  decide +kernel

theorem witness_EncodeDecodeAgree : decode (.command 0x1201000000000000) = .ok (.pidRsti 1) ∧
    decode (.event 0b11) = .ok .evBoth ∧ decode (.resetLine 1) = .ok .reset := by decide

theorem witness_CommandWordsMatchTable_row :
    (0x2100000000000018 : CmdWord) &&& Opcode.mask .senseLd = Opcode.pattern .senseLd := by decide

theorem witness_CommandWordsMatchTable_none :
    ∀ o ∈ Opcode.all, (0x2100000000000118 : CmdWord) &&& o.mask ≠ o.pattern := by decide

theorem witness_IllegalWordsRejected_reserved : Opcode.ofByte (opField 0x3600000000000000) = none := by decide

theorem witness_IllegalWordsRejected_mbz : Opcode.ofByte (opField 0x2000000000000001) = some .fsmCycle ∧
    (0x2000000000000001 : CmdWord) &&& Opcode.mask .fsmCycle &&& 0x00FFFFFFFFFFFFFF ≠ 0 := by decide

theorem witness_RejectedCommandsWriteNothing :
    perform (.command 0x1105000000000000) tuned = .next (answer .badIndex 0 tuned) ∧
    Instr.isCommand .reset = false := ⟨rfl, rfl⟩

theorem witness_StatusesEachCommandCanReturn :
    Instr.isCommand .calEnd = true ∧ exec .calEnd tuned = .next (answer .notReady 0 tuned) := ⟨rfl, rfl⟩

theorem witness_StepRunsDecodedOperation_legal : (presented [present (.event 0b10)]).cfg.wf = true ∧
    requests (present (.event 0b10)) = [.event 0b10] ∧ decode (.event 0b10) = .ok .evEnc := by decide +kernel

theorem witness_StepRunsDecodedOperation_illegal : (presented [present (.command 0x0200000000000000)]).cfg.wf = true ∧
    requests (present (.command 0x0200000000000000)) = [.command 0x0200000000000000] ∧
    decodeCommand 0x0200000000000000 = .error .reservedOpcode := by decide +kernel

theorem witness_StepServesOneOfSimultaneousRequests : (presented [busy]).cfg.wf = true ∧
    (presented [busy]).pending = [busy] ∧ 2 ≤ (requests busy).length := by decide +kernel

theorem witness_InstantIsPerformedInSomeOrder : State.Inv (presented [busy]) ∧
    (presented [busy]).pending = [busy] := by decide +kernel

theorem witness_StreamIsPerformedInOrder : State.Inv (presented ([.command 0, .event 0b11, .resetLine 1].map present)) ∧
    (∀ r ∈ [Request.command 0, .event 0b11, .resetLine 1], requests (present r) = [r]) := by decide +kernel

theorem witness_IdleStepChangesNoRegister : State.reset.cfg.wf = true ∧ State.reset.pending = [] ∧
    (presented [{ cmd := none, ev := 0, rst := 0 }]).cfg.wf = true := by decide +kernel

theorem witness_IllFormedConfigurationRefused :
    ({ State.reset with cfg := withRom [] } : State).cfg.wf = false := by decide +kernel

theorem witness_RomAcceptedAsSpecified : romWf (romOf emptyCfg) = true ∧ romWf [] = false := by decide

theorem witness_ReadSpaceGivesEveryRegister_pid : eightInstances.cfg.wf = true ∧ 0 < eightInstances.cfg.nPid ∧
    eightInstances.regs.pid[0]? = some PidCtx.reset ∧ 7 < eightInstances.cfg.nPid ∧
    eightInstances.regs.pid[7]? = some PidCtx.reset := by decide +kernel

theorem witness_ReadSpaceGivesEveryRegister_sensor :
    (calibrated 199).regs.sensors[0]? = some { raw := 199, cmin := 100, cmax := 300, thr := 200 } ∧
    (calibrated 199).regs.sensors[7]? = some Sensor.reset := by decide

/-- The unmapped ranges at their ends. -/
theorem witness_ReadSpaceGivesEveryRegister_unmapped : ∀ a ∈ [0x09, 0x0F, 0x20, 0x7F, 0xA0, 0xFF],
    (0x09 ≤ a ∧ a < 0x10) ∨ (0x10 + 8 * State.reset.cfg.nPid ≤ a ∧ a < 0x80) ∨ 0xA0 ≤ a := by decide

theorem witness_StatusViewBits : State.Inv tuned ∧ (∃ c, tuned.regs.pid[0]? = some c ∧ c.valid = true) ∧
    8 + tuned.cfg.nPid ≤ 10 := ⟨by decide +kernel, ⟨_, rfl, rfl⟩, by decide⟩

/-- Four registers with given values. -/
def commandRegs (c : StateCode) (v l r : Int) : Regs :=
  { Regs.reset 2 with state := c, steer := BitVec.ofInt 9 v, speedL := BitVec.ofInt 8 l, speedR := BitVec.ofInt 8 r }

theorem witness_CmdOutFields : (commandRegs 2 (-85) 40 100).state = 2 ∧ (commandRegs 2 (-85) 40 100).steer.toInt = -85 ∧
    (commandRegs 2 (-85) 40 100).speedL.toInt = 40 ∧ (commandRegs 2 (-85) 40 100).speedR.toInt = 100 ∧
    (commandRegs 16 10 (-100) 90).state = 16 ∧ (commandRegs 16 10 (-100) 90).steer.toInt = 10 ∧
    (commandRegs 16 10 (-100) 90).speedL.toInt = -100 ∧ (commandRegs 16 10 (-100) 90).speedR.toInt = 90 := by decide

/-- Of every statement with an `mbzRejected` clause: a word of each row's opcode that is not the row's. -/
theorem witness_mbzRejected : ∀ o ∈ Opcode.all.filter (· != .pidInit),
    opField (o.pattern ||| 0x0000000000000100 ||| 0x0000000100000000) = o.code ∧
    (o.pattern ||| 0x0000000000000100 ||| 0x0000000100000000) &&& o.mask ≠ o.pattern := by decide

theorem witness_PidInitResult : State.reset.cfg.nPid ≤ (2 : Byte).toNat ∧ (1 : Byte).toNat < State.reset.cfg.nPid ∧
    (0xFFFF : Half).toInt < 0 ∧ State.reset.cfg.wf = true ∧ 0 ≤ (0 : Half).toInt ∧ 0 ≤ (0x7FFF : Half).toInt := by
  decide +kernel

theorem witness_PidStepResult_notReady : (1 : Byte).toNat < tuned.cfg.nPid ∧
    tuned.regs.pid[(1 : Byte).toNat]? = some PidCtx.reset ∧ PidCtx.reset.valid = false := by decide

/-- Also of the statements on the output, on the windup and on the integrator reset. -/
theorem witness_PidStepResult_ok : State.Inv tuned ∧ (0 : Byte).toNat < tuned.cfg.nPid ∧
    tuned.regs.pid[(0 : Byte).toNat]? = some (pidInitCtx defaultConfig 10 0 0) ∧
    (pidInitCtx defaultConfig 10 0 0).valid = true := by decide +kernel

theorem witness_PidTermsWithinBounds :
    defaultConfig.wf = true ∧ PidCtx.bounded defaultConfig (pidInitCtx defaultConfig 10 16 512) := by decide +kernel

/-- Different operands with the same error, of either sign and zero, the largest and the least among them; and no step.
The state and the instance are those of `witness_PidStepResult_ok`. -/
theorem witness_PidWindupReachesBoundAndHolds :
    ∀ l ∈ [((65535 : Int), [((0x7FFF : Half), (0x8000 : Half))]), (7, [(7, 0), (10, 3), (0, -7)]), (0, [(4, 4), (-1, -1)]),
        (-65535, [(0x8000, 0x7FFF)]), (5, [])],
      ∀ x ∈ l.2, x.1.toInt - x.2.toInt = l.1 := by
  simp only [List.forall_mem_cons, List.not_mem_nil, false_implies, implies_true, and_true]; decide

theorem witness_PidProportionalClampShows :
    (pidInitCtx defaultConfig 10 0 0).iFactor = 0 ∧ (pidInitCtx defaultConfig 10 0 0).dFactor = 0 ∧
    (∀ e ∈ [2979, -2979], -(pidInitCtx defaultConfig 10 0 0).maxSumError.toInt ≤ 0 + e ∧
      0 + e ≤ (pidInitCtx defaultConfig 10 0 0).maxSumError.toInt) ∧
    (pidInitCtx defaultConfig 10 0 0).maxError.toInt < 2979 := by decide

theorem witness_PidInstancesIndependent : tuned.cfg = State.reset.cfg ∧
    tuned.regs.pid[(1 : Byte).toNat]? = State.reset.regs.pid[(1 : Byte).toNat]? ∧ tuned ≠ State.reset := by
  decide +kernel

theorem witness_PidAndFsmUnconnected : State.Inv (cycleStart 0 0x02 50 9) ∧
    (cycleStart 0 0x02 50 9).cfg = State.reset.cfg ∧ (cycleStart 0 0x02 50 9).regs.pid = State.reset.regs.pid := by
  decide +kernel

theorem witness_StatusFlagsWrittenOnlyAsSpecified :
    exec .calBegin State.reset = .next (answer .ok 0 (setCalActive (mapSensors State.reset (beginSensor defaultConfig)) true)) ∧
    exec (.pidInit 0 10 0 0) State.reset = .next (answer .ok 0 tuned) ∧
    (State.reset.regs.pid[0]?.map (·.valid)) = some false ∧ (tuned.regs.pid[0]?.map (·.valid)) = some true :=
  ⟨rfl, rfl, rfl, rfl⟩

theorem witness_FsmCycleResult : inSession.regs.calActive = true ∧ State.reset.regs.calActive = false ∧
    (State.reset.cfg.fsmRom[State.reset.regs.state.toNat]?).isSome = true ∧ State.reset.cfg.wf = true := by
  decide +kernel

theorem witness_FsmCycleRefusesReservedState : (cycleStart 19 0 0 0).cfg.wf = true ∧
    (cycleStart 19 0 0 0).regs.calActive = false ∧ 19 ≤ (cycleStart 19 0 0 0).regs.state.toNat := by decide +kernel

/-- V-FSM-3: the bitmask `0x81` fires no guard of state 0. -/
theorem witness_CycleHoldsOnNoMatch : ∃ c, (cycleStart 0 0x81 4 4).cfg.fsmRom[0]? = some c ∧
    ∀ g ∈ guards 6 c 0x81 4 4, g.1 = false := ⟨_, rfl, by decide +kernel⟩

/-- V-FSM-7: all light in state 0 fires a rule without a command. -/
theorem witness_CycleHoldsOnNoMatch_lost : ∃ c r, (cycleStart 0 0 3 1).cfg.fsmRom[0]? = some c ∧
    firstGuard 6 c 0 3 1 = some r ∧ r.cmd = none := ⟨_, _, rfl, rfl, rfl⟩

/-- The inputs of a cycle, and another command held and other PID contexts than `cycleStart` has. -/
def otherStart (c : StateCode) (m : Bitmask) (t e : Word) : State :=
  { tuned with regs := { tuned.regs with state := c, sense := m, ticks := t, pulses := e, steer := 5 } }

theorem witness_TransitionIsPure : State.Inv (cycleStart 0 0x02 50 9) ∧ State.Inv (otherStart 0 0x02 50 9) ∧
    (cycleStart 0 0x02 50 9).cfg = (otherStart 0 0x02 50 9).cfg ∧ cycleStart 0 0x02 50 9 ≠ otherStart 0 0x02 50 9 ∧
    (cycleStart 0 0x02 50 9).regs.calActive = false ∧ (otherStart 0 0x02 50 9).regs.calActive = false :=
  ⟨by decide +kernel, by decide +kernel, rfl, by decide +kernel, rfl, rfl⟩

theorem witness_TransitionIsPure_fires : ∃ c r x, defaultConfig.fsmRom[0]? = some c ∧
    firstGuard 6 c 0x02 50 9 = some r ∧ r.cmd = some x := ⟨_, _, _, rfl, rfl, rfl⟩

theorem witness_CrossAndLostConditions : cross 1 0x80 = true ∧ cross 8 0xFF = true ∧ cross 8 0xFE = false := by decide

theorem noClear_events (s : State) : noClear [.evTick, .nop, .evBoth] s := by
  refine ⟨by simp [clearsCounters], fun t _ => ⟨by simp [clearsCounters], fun u _ => ⟨by simp [clearsCounters], ?_⟩⟩⟩
  exact fun v _ => trivial

/-- Of `CountersCountEvents` and of `ThresholdGuardsStayTrue`. -/
theorem witness_CountersCountEvents : noClear [.evTick, .nop, .evBoth] (cycleStart 1 0 201 0) ∧
    (∃ t, execAll [.evTick, .nop, .evBoth] (cycleStart 1 0 201 0) = .next t) ∧
    thrFires 201 0 { counter := .ticks, threshold := 200, rule := quiet } = true :=
  ⟨noClear_events _, ⟨_, rfl⟩, by decide⟩

theorem witness_ClsSampleResult : 8 ≤ (8 : Byte).toNat ∧ (7 : Byte).toNat < 8 ∧
    2 ^ State.reset.cfg.rawW ≤ (1024 : Half).toNat ∧ (1023 : Half).toNat < 2 ^ State.reset.cfg.rawW ∧
    State.reset.regs.sensors[(7 : Byte).toNat]? = some Sensor.reset := by decide

theorem witness_ReadingAcrossThresholdFlipsOneBit : State.Inv (calibrated 199) ∧
    (calibrated 199).regs.calActive = false ∧
    (calibrated 199).regs.sensors[(0 : Byte).toNat]? = some { raw := 199, cmin := 100, cmax := 300, thr := 200 } ∧
    (200 : Half).toNat < 2 ^ (calibrated 199).cfg.rawW := by decide +kernel

theorem witness_DegenerateCalibrationGivesZero : State.reset.regs.calActive = false ∧
    ∀ x ∈ State.reset.regs.sensors, x.thr = 0 := by decide

/-- Of the statements on a calibration session: one is open, and one is not. -/
theorem witness_session : inSession.regs.calActive = true ∧ State.reset.regs.calActive = false ∧
    State.reset.cfg.wf = true ∧ inSession.regs.sensors[0]? = some Sensor.reset := by decide +kernel

theorem witness_CalLoadResult : (7 : Byte).toNat < 8 ∧ (1023 : Half).toNat < 2 ^ inSession.cfg.rawW ∧
    2 ^ inSession.cfg.rawW ≤ (1024 : Half).toNat ∧ inSession.regs.calActive = true ∧
    State.reset.regs.sensors[(7 : Byte).toNat]? = some Sensor.reset := by decide

theorem witness_CalibrationLearnsTheRange : State.Inv State.reset ∧ State.reset.regs.calActive = false ∧
    (7 : Byte).toNat < 8 ∧ (1023 : Half).toNat < 2 ^ State.reset.cfg.rawW := by decide +kernel

theorem witness_SessionExclusivity : inSession.regs.calActive = true ∧
    (Instr.calLoad 7 0 1023).wellFormed inSession.cfg = true ∧ Instr.fsmCycle.wellFormed inSession.cfg = true := by decide

theorem witness_AccessMatrixWrites : exec .evTick State.reset = .next (tick State.reset) ∧
    (tick State.reset).regs.ticks ≠ State.reset.regs.ticks := ⟨rfl, by decide⟩

theorem witness_NoHiddenState : (presented [busy]).regs = tuned.regs ∧ (presented [busy]).cfg = tuned.cfg ∧
    presented [busy] ≠ tuned := by decide +kernel

theorem witness_StepKeepsInvariant : State.Inv (presented [present (.event 0b01)]) ∧
    (viewOf Regs.ticks (step (presented [present (.event 0b01)]))) = some 1 := by decide +kernel

end Sys2Proof.Tests
end

section
/-! PROOFS. The scope of the block (`spec/00_scope.md`): every command word is answered and nothing else is (R13), the PID
unit and the FSM unit are not connected (R3), and what a step does with one request and with an ill-formed
configuration. -/

namespace Sys2Proof.Proofs

open Sys2Proof.Machine Sys2Proof.Laws

/-! ### What a command comes to -/

/-- The ways in which a command `i` ends in the state `s` (R12, R262): rejected, performed, or the one refusal of the
model (R29, log 6). -/
inductive CommandEnd (i : Instr) (s : State) : Prop
  | rejected (st : Status) (hst : st ≠ .ok) (h : exec i s = .next (answer st 0 s))
  | performed (v : Word) (u : State) (h : exec i s = .next (answer .ok v u))
  | reservedState (hi : i = .fsmCycle) (hc : stateCfg s = none) (h : exec i s = .refused .reservedStateCode)

theorem exec_commandEnd {i : Instr} (hi : i.isCommand = true) (s : State) : CommandEnd i s := by
  cases i with
  | nop => exact .performed _ _ rfl
  | rd addr =>
    rcases execRd_cases addr s with ⟨-, h⟩ | ⟨r, -, h⟩
    · exact .rejected _ (by decide) h
    · exact .performed _ _ h
  | pidInit k p i d =>
    rcases execPidInit_cases k p i d s with ⟨-, h⟩ | ⟨-, -, h⟩ | ⟨-, -, h⟩
    · exact .rejected _ (by decide) h
    · exact .rejected _ (by decide) h
    · exact .performed _ _ h
  | pidStep k sp pv =>
    rcases execPidStep_cases k sp pv s with ⟨-, h⟩ | ⟨-, -, h⟩ | ⟨-, -, h⟩
    · exact .rejected _ (by decide) h
    · exact .rejected _ (by decide) h
    · exact .performed _ _ h
  | pidRsti k =>
    rcases execPidRsti_cases k s with ⟨-, h⟩ | ⟨-, -, h⟩ | ⟨-, -, h⟩
    · exact .rejected _ (by decide) h
    · exact .rejected _ (by decide) h
    · exact .performed _ _ h
  | fsmCycle =>
    rcases execFsmCycle_cases s with ⟨-, h⟩ | ⟨-, hc, h⟩ | ⟨-, c, -, h⟩
    · exact .rejected _ (by decide) h
    · exact .reservedState rfl hc h
    · exact .performed _ _ h
  | senseLd m => exact .performed _ _ rfl
  | clsSample n raw =>
    rcases execClsSample_cases n raw s with ⟨-, h⟩ | ⟨-, -, h⟩ | ⟨-, -, h⟩
    · exact .rejected _ (by decide) h
    · exact .rejected _ (by decide) h
    · exact .performed _ _ h
  | clsClassify =>
    rcases execClsClassify_cases s with ⟨-, h⟩ | ⟨-, h⟩
    · exact .rejected _ (by decide) h
    · exact .performed _ _ h
  | calBegin =>
    rcases execCalBegin_cases s with ⟨-, h⟩ | ⟨-, h⟩
    · exact .rejected _ (by decide) h
    · exact .performed _ _ h
  | calUpdate =>
    rcases execCalUpdate_cases s with ⟨-, h⟩ | ⟨-, h⟩
    · exact .rejected _ (by decide) h
    · exact .performed _ _ h
  | calEnd =>
    rcases execCalEnd_cases s with ⟨-, h⟩ | ⟨-, h⟩
    · exact .rejected _ (by decide) h
    · exact .performed _ _ h
  | calLoad n min max =>
    rcases execCalLoad_cases n min max s with ⟨-, h⟩ | ⟨-, -, h⟩ | ⟨-, -, -, h⟩ | ⟨-, -, -, h⟩
    · exact .rejected _ (by decide) h
    · exact .rejected _ (by decide) h
    · exact .rejected _ (by decide) h
    · exact .performed _ _ h
  | evTick | evEnc | evBoth | reset => cases hi

/-- In a state that meets the invariant `STATE` holds no reserved code (R29). -/
theorem stateCfg_of_inv {s : State} (hs : State.Inv s) : ∃ c, stateCfg s = some c ∧ c.wf = true := by
  obtain ⟨hwf, -, -, hstate, -⟩ := hs
  exact stateCfg_of_wf hwf hstate

/-- In a state that meets the invariant every command is answered (R13). -/
theorem exec_command_answers {i : Instr} (hi : i.isCommand = true) {s : State} (hs : State.Inv s) :
    ∃ st v u, exec i s = .next (answer st v u) := by
  cases exec_commandEnd hi s with
  | rejected st _ h => exact ⟨st, 0, s, h⟩
  | performed v u h => exact ⟨.ok, v, u, h⟩
  | reservedState _ hc _ =>
    obtain ⟨c, hc', -⟩ := stateCfg_of_inv hs
    rw [hc] at hc'
    cases hc'

/-! ### What a request comes to -/

theorem perform_of_decode {r : Request} {i : Instr} (h : decode r = .ok i) (s : State) : perform r s = exec i s := by
  rw [perform, h]

/-- A command word that the decoder rejects is answered `ILLEGAL_OP` (R88): of the decoder's four reasons a command word
meets the first two only. -/
theorem perform_of_decodeCommand_error {w : CmdWord} {e : DecodeReject} (h : decodeCommand w = .error e) (s : State) :
    perform (.command w) s = .next (answer .illegalOp 0 s) := by
  have hd : decode (.command w) = decodeCommand w := rfl
  rcases decodeCommand_cases w with ⟨-, h'⟩ | ⟨o, -, -, h'⟩ | ⟨o, -, -, h'⟩
  · rw [perform, hd, h']
    rfl
  · rw [perform, hd, h']
    rfl
  · rw [h] at h'
    cases h'

theorem isCommand_of_decodeCommand {w : CmdWord} {i : Instr} (h : decodeCommand w = .ok i) : i.isCommand = true := by
  obtain ⟨o, -, -, rfl⟩ := decodeCommand_ok h
  exact assemble_isCommand w o

theorem perform_command_answers (w : CmdWord) {s : State} (hs : State.Inv s) :
    ∃ st v u, perform (.command w) s = .next (answer st v u) := by
  cases h : decodeCommand w with
  | error e => exact ⟨_, _, _, perform_of_decodeCommand_error h s⟩
  | ok i =>
    rw [perform_of_decode (r := .command w) h]
    exact exec_command_answers (isCommand_of_decodeCommand h) hs

/-- Every value of the event port completes in every state and leaves the response port alone (R13, R83). -/
theorem perform_event_keeps_resp (ev : BitVec 2) (s : State) :
    ∃ t, perform (.event ev) s = .next t ∧ t.resp = s.resp := by
  rcases event_values ev with rfl | rfl | rfl | rfl
  · exact ⟨s, rfl, rfl⟩
  · exact ⟨tick s, rfl, rfl⟩
  · exact ⟨encoderEdge s, rfl, rfl⟩
  · exact ⟨encoderEdge (tick s), rfl, rfl⟩

/-- So does every value of the reset line (R13, R84). -/
theorem perform_resetLine_keeps_resp (rst : BitVec 1) (s : State) :
    ∃ t, perform (.resetLine rst) s = .next t ∧ t.resp = s.resp := by
  rcases reset_values rst with rfl | rfl
  · exact ⟨s, rfl, rfl⟩
  · exact ⟨{ s with regs := Regs.reset s.cfg.nPid }, rfl, rfl⟩

/-- Settles O9: a command ends in an answer unless `STATE` holds a reserved code, which the invariant excludes; each value
of the other two ports is looked at. -/
theorem oneResponsePerCommand : Obligations.OneResponsePerCommand := by
  refine ⟨fun w s hs => ?_, perform_event_keeps_resp, perform_resetLine_keeps_resp⟩
  obtain ⟨st, v, u, h⟩ := perform_command_answers w hs
  exact ⟨_, _, h, rfl⟩

/-! ### The FSM does not see the PID registers -/

/-- The state with other PID contexts. -/
def withPid (pid : List PidCtx) (s : State) : State := { s with regs := { s.regs with pid := pid } }

section
variable (cfg : Config) (c : StateCfg) (pid : List PidCtx) (r : Regs) (s : State)

theorem applyCmd_withPid (d : Option RomCmd) :
    applyCmd cfg d { r with pid := pid } = { applyCmd cfg d r with pid := pid } := by
  cases d <;> rfl

theorem applyNext_withPid (n : Option StateCode) :
    applyNext n { r with pid := pid } = { applyNext n r with pid := pid } := by
  cases n <;> rfl

theorem applyRst_withPid (b : Bool) : applyRst b { r with pid := pid } = { applyRst b r with pid := pid } := by
  cases b <;> rfl

theorem applyRule_withPid (u : Option RomRule) :
    applyRule cfg u { r with pid := pid } = { applyRule cfg u r with pid := pid } := by
  cases u with
  | none => rfl
  | some x => simp only [applyRule, applyCmd_withPid, applyNext_withPid, applyRst_withPid]

/-- A cycle's rule is selected without the PID contexts, and its actions leave them (R166, R167). -/
theorem cycle_withPid : cycle c (withPid pid s) = withPid pid (cycle c s) :=
  congrArg (fun regs => { s with regs := regs }) (applyRule_withPid s.cfg pid s.regs _)

theorem cmdOut_withPid : cmdOut (withPid pid s) = cmdOut s := rfl

end

theorem execFsmCycle_in_session {s : State} (h : calActive s = true) :
    execFsmCycle s = .next (answer .notReady 0 s) := by
  rw [execFsmCycle, h]
  rfl

theorem execFsmCycle_of_stateCfg {s : State} {c : StateCfg} (h : calActive s = false) (hc : stateCfg s = some c) :
    execFsmCycle s = .next (answer .ok (cmdOut (cycle c s)) (cycle c s)) := by
  rw [execFsmCycle, h, hc]
  rfl

/-- `FSM.CYCLE` with other PID contexts does the same to everything else (R3). -/
theorem execFsmCycle_withPid {s : State} (hs : State.Inv s) (pid : List PidCtx) :
    ∃ t, execFsmCycle s = .next t ∧ execFsmCycle (withPid pid s) = .next (withPid pid t) := by
  cases h : calActive s with
  | true => exact ⟨_, execFsmCycle_in_session h, execFsmCycle_in_session (s := withPid pid s) h⟩
  | false =>
    obtain ⟨c, hc, -⟩ := stateCfg_of_inv hs
    refine ⟨_, execFsmCycle_of_stateCfg h hc, ?_⟩
    rw [execFsmCycle_of_stateCfg (s := withPid pid s) h hc, cycle_withPid, cmdOut_withPid]
    rfl

/-! ### The PID does not see the FSM and counter registers -/

/-- Two operations that complete with the same PID contexts and the same response. -/
def SamePidResult (x x' : Result) : Prop :=
  ∃ t t', x = .next t ∧ x' = .next t' ∧ t.regs.pid = t'.regs.pid ∧ t.resp = t'.resp

section
variable {s s' : State}

theorem reject_samePidResult (hpid : s.regs.pid = s'.regs.pid) (st : Status) :
    SamePidResult (reject st s) (reject st s') :=
  ⟨_, _, rfl, rfl, hpid, rfl⟩

theorem respond_setPid_samePidResult (hpid : s.regs.pid = s'.regs.pid) (v : Word) (k : Nat) (c : PidCtx) :
    SamePidResult (respond v (setPid s k c)) (respond v (setPid s' k c)) :=
  ⟨_, _, rfl, rfl, congrArg (·.set k c) hpid, rfl⟩

theorem pidCtx_congr (hpid : s.regs.pid = s'.regs.pid) (k : Nat) : pidCtx s k = pidCtx s' k :=
  congrArg (·.getD k PidCtx.reset) hpid

theorem valid_congr (hpid : s.regs.pid = s'.regs.pid) (k : Nat) : valid s k = valid s' k :=
  congrArg PidCtx.valid (pidCtx_congr hpid k)

theorem execPidInit_samePidResult (hcfg : s.cfg = s'.cfg) (hpid : s.regs.pid = s'.regs.pid) (k : Byte)
    (p i d : Half) : SamePidResult (execPidInit k p i d s) (execPidInit k p i d s') := by
  rw [execPidInit, execPidInit, hcfg]
  split
  · exact reject_samePidResult hpid _
  · split
    · exact reject_samePidResult hpid _
    · exact respond_setPid_samePidResult hpid _ _ _

theorem execPidStep_samePidResult (hcfg : s.cfg = s'.cfg) (hpid : s.regs.pid = s'.regs.pid) (k : Byte)
    (sp pv : Half) : SamePidResult (execPidStep k sp pv s) (execPidStep k sp pv s') := by
  rw [execPidStep, execPidStep, hcfg, valid_congr hpid, pidCtx_congr hpid]
  split
  · exact reject_samePidResult hpid _
  · split
    · exact reject_samePidResult hpid _
    · exact respond_setPid_samePidResult hpid _ _ _

theorem execPidRsti_samePidResult (hcfg : s.cfg = s'.cfg) (hpid : s.regs.pid = s'.regs.pid) (k : Byte) :
    SamePidResult (execPidRsti k s) (execPidRsti k s') := by
  rw [execPidRsti, execPidRsti, hcfg, valid_congr hpid, pidCtx_congr hpid]
  split
  · exact reject_samePidResult hpid _
  · split
    · exact reject_samePidResult hpid _
    · exact respond_setPid_samePidResult hpid _ _ _

end

/-- Settles O32: the FSM's operations commute with a change of the PID contexts; each check and each written context of
a PID operation is a function of the configuration and the PID contexts. -/
theorem pidAndFsmUnconnected : Obligations.PidAndFsmUnconnected := by
  constructor
  · rintro s pid i hs (rfl | ⟨m, rfl⟩)
    · exact execFsmCycle_withPid hs pid
    · exact ⟨_, rfl, rfl⟩
  · rintro s s' k i hcfg hpid (⟨p, q, r, rfl⟩ | ⟨sp, pv, rfl⟩ | rfl)
    · exact execPidInit_samePidResult hcfg hpid k p q r
    · exact execPidStep_samePidResult hcfg hpid k sp pv
    · exact execPidRsti_samePidResult hcfg hpid k

/-! ### Steps -/

/-- A step at an instant that makes one request performs it, with the instant taken off the stream and no response. -/
theorem step_of_single_request {s : State} {p : Presentation} {ps : List Presentation} {r : Request}
    (hwf : s.cfg.wf = true) (hp : s.pending = p :: ps) (hr : requests p = [r]) :
    step s = perform r { s with pending := ps, resp := none } := by
  have hf : fetch s = serve r { s with pending := ps, resp := none } := by simp only [fetch, hp, hr]
  rw [step_of_wf hwf, hf]
  exact serve_perform r _

theorem step_of_not_wf {s : State} (h : s.cfg.wf = false) : step s = .refused .illFormedConfiguration :=
  if_neg (by rw [h]; decide)

/-- Settles O11, by what `perform` makes of the one request in either case of the decoder. -/
theorem stepRunsDecodedOperation : Obligations.StepRunsDecodedOperation := by
  constructor
  · intro s p ps r i hwf hp hr hd
    rw [step_of_single_request hwf hp hr, perform_of_decode hd]
  · intro s p ps w e hwf hp hr hd
    rw [step_of_single_request hwf hp hr, perform_of_decodeCommand_error hd]

/-- Settles O16: the check of the configuration stands before the fetch. -/
theorem illFormedConfigurationRefused : Obligations.IllFormedConfigurationRefused :=
  fun _ => step_of_not_wf

end Sys2Proof.Proofs
end

section
/-! PROOFS. The registers (`spec/10_state.md`): what each operation leaves in them (R39), and what therefore holds
of them after reset and after every step (R25, R29, R33, R181). -/

namespace Sys2Proof.Proofs

open Sys2Proof.Machine Sys2Proof.Laws

/-! ### What an operation leaves -/

/-- The states in which an operation can leave the state `s`: a command that is rejected, or that reads only, leaves an
answer and no other change; each other constructor is one operation performed, with what its checks have shown. -/
inductive Leaves (s : State) : Instr → State → Prop
  | answered (i : Instr) (st : Status) (v : Word) : Leaves s i (answer st v s)
  | pidInit (k : Byte) {p i d : Half} (hp : 0 ≤ p.toInt) (hi : 0 ≤ i.toInt) (hd : 0 ≤ d.toInt) :
      Leaves s (.pidInit k p i d) (answer .ok 0 (setPid s k.toNat (pidInitCtx s.cfg p i d)))
  | pidStep (k : Byte) (sp pv : Half) (hk : k.toNat < s.cfg.nPid) (hv : valid s k.toNat = true) (v : Word) :
      Leaves s (.pidStep k sp pv)
        (answer .ok v (setPid s k.toNat (pidStepCtx s.cfg (pidCtx s k.toNat) sp pv)))
  | pidRsti (k : Byte) (hk : k.toNat < s.cfg.nPid) (hv : valid s k.toNat = true) :
      Leaves s (.pidRsti k) (answer .ok 0 (setPid s k.toNat { pidCtx s k.toNat with sumError := 0 }))
  | fsmCycle (c : StateCfg) (hc : stateCfg s = some c) (v : Word) : Leaves s .fsmCycle (answer .ok v (cycle c s))
  | senseLd (m : Byte) : Leaves s (.senseLd m) (answer .ok 0 (setSense s m))
  | clsSample (n : Byte) {raw : Half} (hn : n.toNat < 8) (hraw : raw.toNat < 2 ^ s.cfg.rawW) :
      Leaves s (.clsSample n raw) (answer .ok 0 (setSensor s n.toNat { sensor s n.toNat with raw := raw }))
  | clsClassify (m : Bitmask) (v : Word) : Leaves s .clsClassify (answer .ok v (setSense s m))
  | calBegin : Leaves s .calBegin (answer .ok 0 (setCalActive (mapSensors s (beginSensor s.cfg)) true))
  | calUpdate : Leaves s .calUpdate (answer .ok 0 (mapSensors s updateSensor))
  | calEnd : Leaves s .calEnd (answer .ok 0 (setCalActive (mapSensors s endSensor) false))
  | calLoad (n : Byte) {lo hi : Half} (hn : n.toNat < 8) (hlo : lo.toNat < 2 ^ s.cfg.rawW)
      (hhi : hi.toNat < 2 ^ s.cfg.rawW) :
      Leaves s (.calLoad n lo hi) (answer .ok 0 (setSensor s n.toNat (loadSensor lo hi (sensor s n.toNat))))
  | evTick : Leaves s .evTick (tick s)
  | evEnc : Leaves s .evEnc (encoderEdge s)
  | evBoth : Leaves s .evBoth (encoderEdge (tick s))
  | reset : Leaves s .reset { s with regs := Regs.reset s.cfg.nPid }

/-- An operation that completes leaves one of these states. -/
theorem exec_leaves {i : Instr} {s t : State} (h : exec i s = .next t) : Leaves s i t := by
  cases i with
  | nop => cases h; exact .answered ..
  | rd addr =>
    rcases execRd_cases addr s with ⟨-, e⟩ | ⟨r, -, e⟩ <;> cases e.symm.trans h
    · exact .answered ..
    · exact .answered ..
  | pidInit k p i d =>
    rcases execPidInit_cases k p i d s with ⟨-, e⟩ | ⟨-, -, e⟩ | ⟨-, hg, e⟩ <;> cases e.symm.trans h
    · exact .answered ..
    · exact .answered ..
    · simp only [Bool.and_eq_true, gainOk_iff] at hg
      obtain ⟨⟨hp, hi⟩, hd⟩ := hg
      exact .pidInit k hp hi hd
  | pidStep k sp pv =>
    rcases execPidStep_cases k sp pv s with ⟨-, e⟩ | ⟨-, -, e⟩ | ⟨hk, hv, e⟩ <;> cases e.symm.trans h
    · exact .answered ..
    · exact .answered ..
    · exact .pidStep k sp pv (instanceOk_iff.1 hk) hv _
  | pidRsti k =>
    rcases execPidRsti_cases k s with ⟨-, e⟩ | ⟨-, -, e⟩ | ⟨hk, hv, e⟩ <;> cases e.symm.trans h
    · exact .answered ..
    · exact .answered ..
    · exact .pidRsti k (instanceOk_iff.1 hk) hv
  | fsmCycle =>
    rcases execFsmCycle_cases s with ⟨-, e⟩ | ⟨-, -, e⟩ | ⟨-, c, hc, e⟩ <;> cases e.symm.trans h
    · exact .answered ..
    · exact .fsmCycle c hc _
  | senseLd m => cases h; exact .senseLd m
  | clsSample n raw =>
    rcases execClsSample_cases n raw s with ⟨-, e⟩ | ⟨-, -, e⟩ | ⟨hn, hr, e⟩ <;> cases e.symm.trans h
    · exact .answered ..
    · exact .answered ..
    · exact .clsSample n (sensorOk_iff.1 hn) (rawOk_iff.1 hr)
  | clsClassify =>
    rcases execClsClassify_cases s with ⟨-, e⟩ | ⟨-, e⟩ <;> cases e.symm.trans h
    · exact .answered ..
    · exact .clsClassify _ _
  | calBegin =>
    rcases execCalBegin_cases s with ⟨-, e⟩ | ⟨-, e⟩ <;> cases e.symm.trans h
    · exact .answered ..
    · exact .calBegin
  | calUpdate =>
    rcases execCalUpdate_cases s with ⟨-, e⟩ | ⟨-, e⟩ <;> cases e.symm.trans h
    · exact .answered ..
    · exact .calUpdate
  | calEnd =>
    rcases execCalEnd_cases s with ⟨-, e⟩ | ⟨-, e⟩ <;> cases e.symm.trans h
    · exact .answered ..
    · exact .calEnd
  | calLoad n lo hi =>
    rcases execCalLoad_cases n lo hi s with ⟨-, e⟩ | ⟨-, -, e⟩ | ⟨-, -, -, e⟩ | ⟨hn, hr, -, e⟩ <;>
      cases e.symm.trans h
    · exact .answered ..
    · exact .answered ..
    · exact .answered ..
    · simp only [Bool.and_eq_true, rawOk_iff] at hr
      obtain ⟨hlo, hhi⟩ := hr
      exact .calLoad n (sensorOk_iff.1 hn) hlo hhi
  | evTick => cases h; exact .evTick
  | evEnc => cases h; exact .evEnc
  | evBoth => cases h; exact .evBoth
  | reset => cases h; exact .reset

/-! ### The invariant in three parts -/

/-- The PID contexts are as R24 and R25 say, and there are `N_PID` of them. -/
def PidListWf (cfg : Config) (l : List PidCtx) : Prop := l.length = cfg.nPid ∧ ∀ c ∈ l, PidCtx.wf cfg c

/-- `STATE` is a state code (R29) and the commands are within their clamps (R181). -/
def CommandRegsWf (cfg : Config) (r : Regs) : Prop :=
  r.state.toNat < nStates ∧
  -(cfg.steerMax : Int) ≤ r.steer.toInt ∧ r.steer.toInt ≤ cfg.steerMax ∧
  -(cfg.speedMax : Int) ≤ r.speedL.toInt ∧ r.speedL.toInt ≤ cfg.speedMax ∧
  -(cfg.speedMax : Int) ≤ r.speedR.toInt ∧ r.speedR.toInt ≤ cfg.speedMax

/-- The sensors' registers are as R33 says. -/
def SensorListWf (cfg : Config) (l : List Sensor) : Prop := l.length = nSens ∧ ∀ x ∈ l, Sensor.wf cfg x

theorem regsWf_iff {cfg : Config} {r : Regs} :
    Regs.wf cfg r ↔ PidListWf cfg r.pid ∧ CommandRegsWf cfg r ∧ SensorListWf cfg r.sensors := by
  simp only [Regs.wf, PidListWf, CommandRegsWf, SensorListWf, and_assoc]

theorem forall_mem_set {α : Type} {P : α → Prop} {l : List α} (h : ∀ y ∈ l, P y) (n : Nat) {x : α} (hx : P x) :
    ∀ y ∈ l.set n x, P y := by
  intro y hy
  rcases List.mem_or_eq_of_mem_set hy with hy | rfl
  · exact h y hy
  · exact hx

section
variable {cfg : Config}

theorem PidListWf.set {l : List PidCtx} (h : PidListWf cfg l) (k : Nat) {c : PidCtx} (hc : PidCtx.wf cfg c) :
    PidListWf cfg (l.set k c) := by
  obtain ⟨hlen, hall⟩ := h
  exact ⟨by rw [List.length_set, hlen], forall_mem_set hall k hc⟩

theorem SensorListWf.set {l : List Sensor} (h : SensorListWf cfg l) (n : Nat) {x : Sensor} (hx : Sensor.wf cfg x) :
    SensorListWf cfg (l.set n x) := by
  obtain ⟨hlen, hall⟩ := h
  exact ⟨by rw [List.length_set, hlen], forall_mem_set hall n hx⟩

theorem SensorListWf.map {l : List Sensor} (h : SensorListWf cfg l) {f : Sensor → Sensor}
    (hf : ∀ x, Sensor.wf cfg x → Sensor.wf cfg (f x)) : SensorListWf cfg (l.map f) := by
  obtain ⟨hlen, hall⟩ := h
  refine ⟨by rw [List.length_map, hlen], fun y hy => ?_⟩
  obtain ⟨x, hx, rfl⟩ := List.mem_map.1 hy
  exact hf x (hall x hx)

/-! ### Each unit's writes keep its part -/

theorem wf_of_valid {c : PidCtx} (hv : c.valid = true) (hb : PidCtx.bounded cfg c) : PidCtx.wf cfg c :=
  ⟨fun h => absurd (hv.symm.trans h) (by decide), fun _ => hb⟩

theorem pidInitCtx_wf (hcfg : cfg.wf = true) {p i d : Half} (hp : 0 ≤ p.toInt) (hi : 0 ≤ i.toInt) (hd : 0 ≤ d.toInt) :
    PidCtx.wf cfg (pidInitCtx cfg p i d) := by
  have hsum := pidInitCtx_maxSumError hcfg p d hi
  obtain ⟨hnonneg, -⟩ := tdiv_bounds (a := cfg.maxITerm) (b := i.toInt + 1) (by omega) (by omega)
  have hzero : (pidInitCtx cfg p i d).sumError.toInt = 0 := rfl
  have hout : (pidInitCtx cfg p i d).out.toInt = 0 := rfl
  exact wf_of_valid rfl
    ⟨hp, hi, hd, pidInitCtx_maxError cfg i d hp, hsum, by omega, by omega, by rw [hout]; decide, by rw [hout]; decide⟩

theorem pidStepCtx_wf {c : PidCtx} (hv : c.valid = true) (h : PidCtx.wf cfg c) (sp pv : Half) :
    PidCtx.wf cfg (pidStepCtx cfg c sp pv) := by
  have hb := h.2 hv
  obtain ⟨-, hmax⟩ := bounded_bounds_nonneg hb
  obtain ⟨hp, hi, hd, herr, hsum, -⟩ := hb
  obtain ⟨slo, shi⟩ := pidSum_bounds hmax (pidError sp pv)
  obtain ⟨olo, ohi⟩ := pidOut_bounds cfg c sp pv
  rw [← pidStepCtx_sumError hmax cfg] at slo shi
  rw [← pidStepCtx_out] at olo ohi
  exact wf_of_valid hv ⟨hp, hi, hd, herr, hsum, slo, shi, olo, ohi⟩

theorem clearedSum_wf {c : PidCtx} (hv : c.valid = true) (h : PidCtx.wf cfg c) :
    PidCtx.wf cfg { c with sumError := 0 } := by
  have hb := h.2 hv
  obtain ⟨-, hmax⟩ := bounded_bounds_nonneg hb
  obtain ⟨hp, hi, hd, herr, hsum, -, -, olo, ohi⟩ := hb
  exact wf_of_valid hv ⟨hp, hi, hd, herr, hsum, Int.neg_nonpos_of_nonneg hmax, hmax, olo, ohi⟩

theorem average_lt {b : Nat} {lo hi : Half} (hlo : lo.toNat < b) (hhi : hi.toNat < b) : (average lo hi).toNat < b := by
  rw [average_toNat]
  omega

theorem beginSensor_wf (hcfg : cfg.wf = true) {x : Sensor} (h : Sensor.wf cfg x) :
    Sensor.wf cfg (beginSensor cfg x) := by
  obtain ⟨hraw, -, -, hthr⟩ := h
  have hmax : (rawMax cfg).toNat < 2 ^ cfg.rawW := by
    rw [rawMax_toNat hcfg]
    omega
  exact ⟨hraw, hmax, Nat.two_pow_pos _, hthr⟩

theorem updateSensor_wf {x : Sensor} (h : Sensor.wf cfg x) : Sensor.wf cfg (updateSensor x) := by
  obtain ⟨hraw, hmin, hmax, hthr⟩ := h
  refine ⟨hraw, ?_, ?_, hthr⟩
  · simp only [updateSensor]
    split
    · exact hraw
    · exact hmin
  · simp only [updateSensor]
    split
    · exact hraw
    · exact hmax

theorem endSensor_wf {x : Sensor} (h : Sensor.wf cfg x) : Sensor.wf cfg (endSensor x) := by
  obtain ⟨hraw, hmin, hmax, -⟩ := h
  exact ⟨hraw, hmin, hmax, average_lt hmin hmax⟩

theorem applyCmd_wf (hcfg : cfg.wf = true) {r : Regs} (h : CommandRegsWf cfg r) (d : Option RomCmd) :
    CommandRegsWf cfg (applyCmd cfg d r) := by
  cases d with
  | none => exact h
  | some x =>
    obtain ⟨hstate, -⟩ := h
    have hs := clampSteer_toInt hcfg x.steer
    have hl := clampSpeed_toInt hcfg x.spdL
    have hr := clampSpeed_toInt hcfg x.spdR
    refine ⟨hstate, ?_⟩
    simp only [applyCmd]
    omega

theorem applyNext_wf {r : Regs} (h : CommandRegsWf cfg r) {n : Option StateCode}
    (hn : ∀ c, n = some c → c.toNat < nStates) : CommandRegsWf cfg (applyNext n r) := by
  cases n with
  | none => exact h
  | some c =>
    obtain ⟨-, hcmd⟩ := h
    exact ⟨hn c rfl, hcmd⟩

theorem applyRst_wf {r : Regs} (h : CommandRegsWf cfg r) (b : Bool) : CommandRegsWf cfg (applyRst b r) := by
  cases b <;> exact h

/-- A cycle keeps `STATE` and the commands in range: the fired rule is a rule of a well-formed ROM (R165, R174). -/
theorem cycleRegs_wf (hcfg : cfg.wf = true) {c : StateCfg} (hc : c.wf = true) {r : Regs} (h : CommandRegsWf cfg r) :
    CommandRegsWf cfg (cycleRegs cfg c r) := by
  unfold cycleRegs
  cases hsel : select cfg.crossBandMin c r.sense r.ticks r.pulses with
  | none => exact h
  | some rule =>
    have hnext : ∀ n, rule.next = some n → n.toNat < nStates := fun _ => next_lt (select_wf hc hsel)
    exact applyRst_wf (applyNext_wf (applyCmd_wf hcfg h rule.cmd) hnext) rule.rst

/-- The registers after reset are well formed under every configuration (R38). -/
theorem regsReset_wf (cfg : Config) : Regs.wf cfg (Regs.reset cfg.nPid) := by
  have hpow := Nat.two_pow_pos cfg.rawW
  refine regsWf_iff.2 ⟨⟨List.length_replicate, fun c hc => ?_⟩, ?_, List.length_replicate, fun x hx => ?_⟩
  · obtain rfl := List.eq_of_mem_replicate hc
    exact ⟨fun _ => rfl, fun h => absurd h (by decide)⟩
  · simp [CommandRegsWf, Regs.reset]
  · obtain rfl := List.eq_of_mem_replicate hx
    exact ⟨hpow, hpow, hpow, hpow⟩

end

/-! ### Every operation keeps the invariant -/

section
variable {s : State}

theorem inv_setPid (h : State.Inv s) (k : Nat) {c : PidCtx} (hc : PidCtx.wf s.cfg c) : State.Inv (setPid s k c) := by
  obtain ⟨hcfg, hregs⟩ := h
  obtain ⟨hp, hr, hs⟩ := regsWf_iff.1 hregs
  exact ⟨hcfg, regsWf_iff.2 ⟨hp.set k hc, hr, hs⟩⟩

theorem inv_setSensor (h : State.Inv s) (n : Nat) {x : Sensor} (hx : Sensor.wf s.cfg x) :
    State.Inv (setSensor s n x) := by
  obtain ⟨hcfg, hregs⟩ := h
  obtain ⟨hp, hr, hs⟩ := regsWf_iff.1 hregs
  exact ⟨hcfg, regsWf_iff.2 ⟨hp, hr, hs.set n hx⟩⟩

theorem inv_mapSensors (h : State.Inv s) {f : Sensor → Sensor} (hf : ∀ x, Sensor.wf s.cfg x → Sensor.wf s.cfg (f x)) :
    State.Inv (mapSensors s f) := by
  obtain ⟨hcfg, hregs⟩ := h
  obtain ⟨hp, hr, hs⟩ := regsWf_iff.1 hregs
  exact ⟨hcfg, regsWf_iff.2 ⟨hp, hr, hs.map hf⟩⟩

theorem inv_cycle (h : State.Inv s) {c : StateCfg} (hc : c.wf = true) : State.Inv (cycle c s) := by
  obtain ⟨hcfg, hregs⟩ := h
  obtain ⟨hp, hr, hs⟩ := regsWf_iff.1 hregs
  refine ⟨hcfg, regsWf_iff.2 ⟨?_, cycleRegs_wf hcfg hc hr, ?_⟩⟩
  · simpa using hp
  · simpa using hs

/-- The context that a PID operation with a legal index reads. -/
theorem pidCtx_wf (h : State.Inv s) {k : Nat} (hk : k < s.cfg.nPid) : PidCtx.wf s.cfg (pidCtx s k) :=
  (pid_of_inv h (pidCtx_of_inv h hk)).1

/-- The registers that an operation on an existing sensor reads. -/
theorem sensor_wf (h : State.Inv s) {n : Nat} (hn : n < 8) : Sensor.wf s.cfg (sensor s n) :=
  (sensor_of_inv h hn).2

theorem inv_of_leaves {i : Instr} {t : State} (h : State.Inv s) (ht : Leaves s i t) : State.Inv t := by
  have hcfg := h.1
  cases ht with
  | answered => exact h
  | pidInit k hp hi hd => exact inv_setPid h _ (pidInitCtx_wf hcfg hp hi hd)
  | pidStep k sp pv hk hv => exact inv_setPid h _ (pidStepCtx_wf hv (pidCtx_wf h hk) sp pv)
  | pidRsti k hk hv => exact inv_setPid h _ (clearedSum_wf hv (pidCtx_wf h hk))
  | fsmCycle c hc =>
    obtain ⟨c', hc', hwf⟩ := stateCfg_of_inv h
    obtain rfl : c' = c := Option.some.inj (hc'.symm.trans hc)
    exact inv_cycle h hwf
  | senseLd => exact h
  | clsSample n hn hraw =>
    obtain ⟨-, hmin, hmax, hthr⟩ := sensor_wf h hn
    exact inv_setSensor h _ ⟨hraw, hmin, hmax, hthr⟩
  | clsClassify => exact h
  | calBegin => exact inv_mapSensors h fun _ => beginSensor_wf hcfg
  | calUpdate => exact inv_mapSensors h fun _ => updateSensor_wf
  | calEnd => exact inv_mapSensors h fun _ => endSensor_wf
  | calLoad n hn hlo hhi =>
    obtain ⟨hraw, -, -, -⟩ := sensor_wf h hn
    exact inv_setSensor h _ ⟨hraw, hlo, hhi, average_lt hlo hhi⟩
  | evTick => exact h
  | evEnc => exact h
  | evBoth => exact h
  | reset => exact ⟨hcfg, regsReset_wf s.cfg⟩

theorem exec_keeps_inv {i : Instr} {t : State} (h : State.Inv s) (ht : exec i s = .next t) : State.Inv t :=
  inv_of_leaves h (exec_leaves ht)

/-- A request is performed as the operation it encodes, or is answered or ignored, which writes no register (R88). -/
theorem perform_keeps_inv {r : Request} {t : State} (h : State.Inv s) (ht : perform r s = .next t) : State.Inv t := by
  cases hd : decode r with
  | ok i =>
    rw [perform_of_decode hd] at ht
    exact exec_keeps_inv h ht
  | error e =>
    rw [perform, hd] at ht
    cases e <;> cases ht <;> exact h

end

/-! ### Steps -/

/-- The state with something else in the model's fields beside the registers and the configuration (logs 2 to 4). -/
def withPorts (ps : List Presentation) (n : Nat) (p : Option Response) (s : State) : State :=
  { s with pending := ps, choices := n, resp := p }

/-- A step is idle or performs one request, in the state with that request taken off the stream and no response (R13,
R66, R69). -/
theorem step_cases {s : State} (hcfg : s.cfg.wf = true) :
    ∃ ps n, step s = .next (withPorts ps n none s) ∨ ∃ r, step s = perform r (withPorts ps n none s) := by
  rw [step_of_wf hcfg]
  rcases fetch_cases s with ⟨-, hf⟩ | ⟨p, ps, -, ⟨-, hf⟩ | ⟨r, -, hf⟩ | ⟨-, r, -, hf⟩⟩ <;> rw [hf]
  · exact ⟨s.pending, s.choices, .inl rfl⟩
  · exact ⟨ps, s.choices, .inl rfl⟩
  · exact ⟨ps, s.choices, .inr ⟨r, serve_perform r _⟩⟩
  · exact ⟨remaining (withdraw p r) ps, s.choices + 1, .inr ⟨r, serve_perform r _⟩⟩

/-- Settles O58: a step performs at most one request, and the operations that write the registers of one part of the
invariant keep that part. -/
theorem stepKeepsInvariant : Obligations.StepKeepsInvariant := by
  intro s t h ht
  obtain ⟨ps, n, e | ⟨r, e⟩⟩ := step_cases h.1 <;> rw [e] at ht
  · cases ht
    exact h
  · exact perform_keeps_inv (s := withPorts ps n none s) h ht

/-- Settles O57: the default parameters are well formed, and so are the registers after a reset under any parameters. -/
theorem resetMeetsInvariant : Obligations.ResetMeetsInvariant :=
  ⟨by decide +kernel, regsReset_wf defaultConfig⟩

end Sys2Proof.Proofs
end
section
/-! PROOFS. The registers (`spec/10_state.md`): the write columns of the access matrix (R39), the writers of the two
flags (R23) and the view that shows them (R35), the values after reset (R38), and what an operation depends on (R26, R36,
R37). -/

namespace Sys2Proof.Proofs

open Sys2Proof.Machine Sys2Proof.Laws

/-! ### What the classifier's updates leave of a sensor -/

section
variable (cfg : Config) (x : Sensor)

@[simp] theorem beginSensor_raw : (beginSensor cfg x).raw = x.raw := rfl
@[simp] theorem beginSensor_thr : (beginSensor cfg x).thr = x.thr := rfl
@[simp] theorem updateSensor_raw : (updateSensor x).raw = x.raw := rfl
@[simp] theorem updateSensor_thr : (updateSensor x).thr = x.thr := rfl
@[simp] theorem endSensor_raw : (endSensor x).raw = x.raw := rfl
@[simp] theorem endSensor_cmin : (endSensor x).cmin = x.cmin := rfl
@[simp] theorem endSensor_cmax : (endSensor x).cmax = x.cmax := rfl

end

/-- An update of one sensor that keeps one of its registers keeps that register of every sensor. -/
theorem map_setSensor {α : Type} (g : Sensor → α) (s : State) (n : Nat) (x : Sensor) (hx : g x = g (sensor s n)) :
    (setSensor s n x).regs.sensors.map g = s.regs.sensors.map g := by
  apply List.ext_getElem?
  intro j
  rw [setSensor_sensors, List.getElem?_map, List.getElem?_map]
  by_cases hj : n = j
  · subst hj
    rw [List.getElem?_set_self']
    cases hy : s.regs.sensors[n]? with
    | none => rfl
    | some y => simp [hx, sensor_of_getElem? hy]
  · rw [List.getElem?_set_ne hj]

/-! ### Which operation writes which register (R39)

One lemma for each column of the access matrix: each operation is an update of `Laws/State.lean`, whose lemmas say which
registers it leaves. -/

section
variable {s t : State} {i : Instr}

theorem Leaves.frame (h : Leaves s i t) : t.cfg = s.cfg ∧ t.pending = s.pending ∧ t.choices = s.choices := by
  cases h <;> exact ⟨rfl, rfl, rfl⟩

theorem Leaves.pid_writers (h : Leaves s i t) (hne : t.regs.pid ≠ s.regs.pid) :
    (∃ k p q r, i = .pidInit k p q r) ∨ (∃ k sp pv, i = .pidStep k sp pv) ∨ (∃ k, i = .pidRsti k) ∨ i = .reset := by
  cases h <;> simp at hne ⊢

theorem Leaves.ticks_writers (h : Leaves s i t) (hne : t.regs.ticks ≠ s.regs.ticks) :
    i = .evTick ∨ i = .evBoth ∨ i = .fsmCycle ∨ i = .reset := by
  cases h <;> simp at hne ⊢

theorem Leaves.pulses_writers (h : Leaves s i t) (hne : t.regs.pulses ≠ s.regs.pulses) :
    i = .evEnc ∨ i = .evBoth ∨ i = .fsmCycle ∨ i = .reset := by
  cases h <;> simp at hne ⊢

theorem Leaves.command_writers (h : Leaves s i t) (hne : t.regs.state ≠ s.regs.state ∨ t.regs.steer ≠ s.regs.steer ∨
    t.regs.speedL ≠ s.regs.speedL ∨ t.regs.speedR ≠ s.regs.speedR) : i = .fsmCycle ∨ i = .reset := by
  cases h <;> simp at hne ⊢

theorem Leaves.sense_writers (h : Leaves s i t) (hne : t.regs.sense ≠ s.regs.sense) :
    (∃ m, i = .senseLd m) ∨ i = .clsClassify ∨ i = .reset := by
  cases h <;> simp at hne ⊢

theorem Leaves.raw_writers (h : Leaves s i t) (hne : t.regs.sensors.map (·.raw) ≠ s.regs.sensors.map (·.raw)) :
    (∃ n raw, i = .clsSample n raw) ∨ i = .reset := by
  cases h with
  | calLoad n => exact (hne (map_setSensor (·.raw) s n.toNat _ rfl)).elim
  | _ => simp at hne ⊢

theorem Leaves.cmin_writers (h : Leaves s i t) (hne : t.regs.sensors.map (·.cmin) ≠ s.regs.sensors.map (·.cmin)) :
    i = .calBegin ∨ i = .calUpdate ∨ (∃ n lo hi, i = .calLoad n lo hi) ∨ i = .reset := by
  cases h with
  | clsSample n => exact (hne (map_setSensor (·.cmin) s n.toNat _ rfl)).elim
  | _ => simp at hne ⊢

theorem Leaves.cmax_writers (h : Leaves s i t) (hne : t.regs.sensors.map (·.cmax) ≠ s.regs.sensors.map (·.cmax)) :
    i = .calBegin ∨ i = .calUpdate ∨ (∃ n lo hi, i = .calLoad n lo hi) ∨ i = .reset := by
  cases h with
  | clsSample n => exact (hne (map_setSensor (·.cmax) s n.toNat _ rfl)).elim
  | _ => simp at hne ⊢

theorem Leaves.thr_writers (h : Leaves s i t) (hne : t.regs.sensors.map (·.thr) ≠ s.regs.sensors.map (·.thr)) :
    i = .calEnd ∨ (∃ n lo hi, i = .calLoad n lo hi) ∨ i = .reset := by
  cases h with
  | clsSample n => exact (hne (map_setSensor (·.thr) s n.toNat _ rfl)).elim
  | _ => simp at hne ⊢

theorem Leaves.calActive_writers (h : Leaves s i t) (hne : t.regs.calActive ≠ s.regs.calActive) :
    i = .calBegin ∨ i = .calEnd ∨ i = .reset := by
  cases h <;> simp at hne ⊢

end

/-- Settles O55: the columns of R39 one by one, from the states that an operation can leave. -/
theorem accessMatrixWrites : Obligations.AccessMatrixWrites := by
  intro i s t ht
  have h := exec_leaves ht
  exact ⟨h.frame, h.pid_writers, h.ticks_writers, h.pulses_writers, h.command_writers, h.sense_writers, h.raw_writers,
    fun hne => hne.elim h.cmin_writers h.cmax_writers, h.thr_writers, h.calActive_writers⟩

/-! ### The two flags (R23) -/

/-- An entry of a list after one entry is replaced. -/
theorem getElem?_set_cases {α : Type} {l : List α} {n k : Nat} {x y : α} (h : (l.set n x)[k]? = some y) :
    l[k]? = some y ∨ (n = k ∧ y = x) := by
  by_cases hn : n = k
  · subst hn
    rw [List.getElem?_set_self'] at h
    obtain ⟨-, -, rfl⟩ := Option.map_eq_some_iff.1 h
    exact .inr ⟨rfl, rfl⟩
  · rw [List.getElem?_set_ne hn] at h
    exact .inl h

section
variable {s t : State} {i : Instr}

theorem Leaves.valid_written (h : Leaves s i t) {k : Nat} {c c' : PidCtx} (hc : s.regs.pid[k]? = some c)
    (hc' : t.regs.pid[k]? = some c') (hne : c'.valid ≠ c.valid) :
    (c'.valid = true ∧ ∃ (n : Byte) (p q r : Half), i = .pidInit n p q r ∧ n.toNat = k) ∨
      (c'.valid = false ∧ i = .reset) := by
  have hkept : ¬ s.regs.pid[k]? = some c' := fun e => hne (congrArg PidCtx.valid (Option.some.inj (e.symm.trans hc)))
  have hpid : t.regs.pid ≠ s.regs.pid := fun e => hkept (e ▸ hc')
  rcases h.pid_writers hpid with ⟨n, p, q, r, rfl⟩ | ⟨n, sp, pv, rfl⟩ | ⟨n, rfl⟩ | rfl
  · cases h with
    | answered => exact absurd rfl hpid
    | pidInit =>
      obtain ⟨hk, rfl⟩ := (getElem?_set_cases hc').resolve_left hkept
      exact .inl ⟨rfl, n, p, q, r, rfl, hk⟩
  · cases h with
    | answered => exact absurd rfl hpid
    | pidStep =>
      obtain ⟨rfl, rfl⟩ := (getElem?_set_cases hc').resolve_left hkept
      exact absurd (congrArg PidCtx.valid (pidCtx_of_getElem? hc)) hne
  · cases h with
    | answered => exact absurd rfl hpid
    | pidRsti =>
      obtain ⟨rfl, rfl⟩ := (getElem?_set_cases hc').resolve_left hkept
      exact absurd (congrArg PidCtx.valid (pidCtx_of_getElem? hc)) hne
  · cases h with
    | answered => exact absurd rfl hpid
    | reset =>
      obtain rfl := List.eq_of_mem_replicate (List.mem_of_getElem? hc')
      exact .inr ⟨rfl, rfl⟩

theorem Leaves.calActive_written (h : Leaves s i t) (hne : t.regs.calActive ≠ s.regs.calActive) :
    (t.regs.calActive = true ∧ i = .calBegin) ∨ (t.regs.calActive = false ∧ (i = .calEnd ∨ i = .reset)) := by
  rcases h.calActive_writers hne with rfl | rfl | rfl
  · cases h with
    | answered => exact absurd rfl hne
    | calBegin => exact .inl ⟨rfl, rfl⟩
  · cases h with
    | answered => exact absurd rfl hne
    | calEnd => exact .inr ⟨rfl, .inl rfl⟩
  · cases h with
    | answered => exact absurd rfl hne
    | reset => exact .inr ⟨rfl, .inr rfl⟩

end

/-- Settles O33: of the writers that R39 gives each flag's register, what each leaves in the flag. -/
theorem statusFlagsWrittenOnlyAsSpecified : Obligations.StatusFlagsWrittenOnlyAsSpecified := by
  intro i s t ht
  have h := exec_leaves ht
  exact ⟨fun _ _ _ => h.valid_written, h.calActive_written⟩

/-! ### The view of the flags (R35) -/

/-- Bit `j` of `STATUS`: the bits below 8 are those of the number `CAL_ACTIVE`, the others are the `VALID` flags. -/
theorem status_getLsbD (s : State) (j : Nat) :
    (status s).getLsbD j = (decide (j < 32) &&
      if j < 8 then s.regs.calActive.toNat.testBit j else (s.regs.pid[j - 8]?.map PidCtx.valid).getD false) := by
  have hlow : s.regs.calActive.toNat < 2 ^ 8 := lt_trans (Bool.toNat_lt _) (by decide)
  rw [status, BitVec.getLsbD_ofNat, calActive, Nat.add_comm,
    Nat.testBit_two_pow_mul_add (packBits (s.regs.pid.map PidCtx.valid)) hlow, packBits_testBit, List.getElem?_map]

/-- Settles O21: with at most eight contexts every `VALID` flag has a bit of the word (R7). -/
theorem statusViewBits : Obligations.StatusViewBits := by
  intro s h
  obtain ⟨⟨-, hn⟩, -⟩ := wf_ranges h.1
  refine ⟨?_, fun k c hc => ?_, fun j hj hrange => ?_⟩
  · rw [status_getLsbD]
    cases s.regs.calActive <;> rfl
  · obtain ⟨-, hk⟩ := pid_of_inv h hc
    rw [status_getLsbD]
    simp [hc, show 8 + k < 32 by omega]
  · rw [status_getLsbD]
    rcases hrange with hlow | hhigh
    · have hzero : s.regs.calActive.toNat.testBit j = false :=
        Nat.testBit_lt_two_pow (lt_of_lt_of_le (Bool.toNat_lt _) (Nat.le_self_pow hj 2))
      simp [hlow, hzero]
    · have hnone : s.regs.pid[j - 8]? = none := by
        obtain ⟨-, hlen, -⟩ := h
        exact List.getElem?_eq_none (by omega)
      simp [hnone, show ¬ j < 8 by omega]

/-! ### A reserved code in `STATE` (R29, log 6) -/

/-- Settles O35: a reserved code has no configuration in the ROM, so of the ends of `FSM.CYCLE` the refusal remains. -/
theorem fsmCycleRefusesReservedState : Obligations.FsmCycleRefusesReservedState := by
  intro s hcfg hcal hstate
  have hnone := stateCfg_reserved hcfg hstate
  rcases execFsmCycle_cases s with ⟨hactive, -⟩ | ⟨-, -, e⟩ | ⟨-, c, hc, -⟩
  · exact absurd (hactive.symm.trans hcal) (by decide)
  · exact e
  · exact absurd (hc.symm.trans hnone) (by simp)

/-! ### Reset (R38) -/

theorem packBits_replicate_false (n : Nat) : packBits (List.replicate n false) = 0 := by
  induction n with
  | zero => rfl
  | succ n ih => simp [List.replicate_succ, packBits, ih]

theorem status_reset (s : State) : status { s with regs := Regs.reset s.cfg.nPid } = 0 := by
  have hflags : (Regs.reset s.cfg.nPid).pid.map PidCtx.valid = List.replicate s.cfg.nPid false := List.map_replicate
  rw [status, calActive, hflags, packBits_replicate_false]
  rfl

theorem cmdOut_reset (s : State) (n : Nat) : cmdOut { s with regs := Regs.reset n } = 0 := by
  show (0 : BitVec 2) ++ (0 : StateCode) ++ (0 : Steering) ++ (0 : Speed) ++ (0 : Speed) = 0
  decide

/-- Settles O54: every register is written out; the lists are copies of one reset context and one reset sensor. -/
theorem resetWritesEveryRegister : Obligations.ResetWritesEveryRegister := fun s =>
  ⟨_, rfl, rfl, rfl, rfl, rfl, rfl, rfl, rfl, rfl, rfl, List.length_replicate, fun _ => List.eq_of_mem_replicate,
    List.length_replicate, fun _ => List.eq_of_mem_replicate, rfl, rfl, rfl, rfl, cmdOut_reset s _, status_reset s⟩

/-! ### What an operation depends on (R26, R36) -/

/-- Two operations that complete with the same response and leave the same of the registers, so far as `f` sees them. -/
def SameAnswer {α : Type} (f : Regs → α) (x x' : Result) : Prop :=
  ∃ t t', x = .next t ∧ x' = .next t' ∧ f t.regs = f t'.regs ∧ t.resp = t'.resp

section
variable {α : Type} {f : Regs → α} {s s' : State}

theorem reject_sameAnswer (h : f s.regs = f s'.regs) (st : Status) : SameAnswer f (reject st s) (reject st s') :=
  ⟨_, _, rfl, rfl, h, rfl⟩

theorem respond_sameAnswer (h : f s.regs = f s'.regs) (v : Word) : SameAnswer f (respond v s) (respond v s') :=
  ⟨_, _, rfl, rfl, h, rfl⟩

/-- Two operations that make the same check. -/
theorem ite_sameAnswer {x x' y y' : Result} {b : Bool} (hx : SameAnswer f x x') (hy : SameAnswer f y y') :
    SameAnswer f (if b then x else y) (if b then x' else y') := by
  cases b
  · exact hy
  · exact hx

end

section
variable {s s' : State} {k : Nat}

theorem pidCtx_congr_getElem? (h : s.regs.pid[k]? = s'.regs.pid[k]?) : pidCtx s k = pidCtx s' k := by
  simp only [pidCtx, List.getD_eq_getElem?_getD, h]

theorem setPid_getElem?_self (s : State) (k : Nat) (c : PidCtx) :
    (setPid s k c).regs.pid[k]? = s.regs.pid[k]?.map (fun _ => c) := by
  rw [setPid_pid, List.getElem?_set_self']
  rfl

theorem setPid_sameAnswer (h : s.regs.pid[k]? = s'.regs.pid[k]?) (v : Word) (c : PidCtx) :
    SameAnswer (·.pid[k]?) (respond v (setPid s k c)) (respond v (setPid s' k c)) :=
  respond_sameAnswer (by rw [setPid_getElem?_self, setPid_getElem?_self, h]) v

end

/-- The operations on `PID[k]` (R26). -/
def IsPidOp (k : Byte) (i : Instr) : Prop :=
  (∃ p q r, i = .pidInit k p q r) ∨ (∃ sp pv, i = .pidStep k sp pv) ∨ i = .pidRsti k

/-- An operation on `PID[k]` depends on the configuration and on `PID[k]` alone (R26). -/
theorem exec_pid_sameAnswer {s s' : State} (hcfg : s.cfg = s'.cfg) {k : Byte} {i : Instr}
    (hi : IsPidOp k i) (h : s.regs.pid[k.toNat]? = s'.regs.pid[k.toNat]?) :
    SameAnswer (·.pid[k.toNat]?) (exec i s) (exec i s') := by
  have hctx : pidCtx s (indexOf k) = pidCtx s' (indexOf k) := pidCtx_congr_getElem? h
  have hreject := reject_sameAnswer (f := (·.pid[k.toNat]?)) h
  rcases hi with ⟨p, q, r, rfl⟩ | ⟨sp, pv, rfl⟩ | rfl
  · simp only [exec, execPidInit, hcfg]
    exact ite_sameAnswer (hreject _) (ite_sameAnswer (hreject _) (setPid_sameAnswer h _ _))
  · simp only [exec, execPidStep, valid, hcfg, hctx]
    exact ite_sameAnswer (hreject _) (ite_sameAnswer (hreject _) (setPid_sameAnswer h _ _))
  · simp only [exec, execPidRsti, valid, hcfg, hctx]
    exact ite_sameAnswer (hreject _) (ite_sameAnswer (hreject _) (setPid_sameAnswer h _ _))

/-- An operation on `PID[k]` writes no other context (R26). -/
theorem Leaves.pid_other {s t : State} {k : Byte} {i : Instr} (h : Leaves s i t) (hi : IsPidOp k i)
    {j : Nat} (hj : j ≠ k.toNat) : t.regs.pid[j]? = s.regs.pid[j]? := by
  rcases hi with ⟨p, q, r, rfl⟩ | ⟨sp, pv, rfl⟩ | rfl
  · cases h with
    | answered => rfl
    | pidInit => exact List.getElem?_set_ne hj.symm
  · cases h with
    | answered => rfl
    | pidStep => exact List.getElem?_set_ne hj.symm
  · cases h with
    | answered => rfl
    | pidRsti => exact List.getElem?_set_ne hj.symm

/-- Settles O31: that an operation on `PID[k]` completes is its dependence on `PID[k]`, for one state twice. -/
theorem pidInstancesIndependent : Obligations.PidInstancesIndependent := by
  refine fun k i hi => ⟨fun s => ?_, fun s s' hcfg h => exec_pid_sameAnswer hcfg hi h⟩
  obtain ⟨t, -, ht, -⟩ := exec_pid_sameAnswer (s := s) rfl hi rfl
  exact ⟨t, ht, fun j hj => (exec_leaves ht).pid_other hi hj⟩

/-- A command's checks, writes and answer are functions of the registers and the configuration (R36, R37). -/
theorem exec_command_sameAnswer {i : Instr} (hi : i.isCommand = true) {s : State} (hs : State.Inv s)
    (ps : List Presentation) (n : Nat) (p : Option Response) :
    SameAnswer id (exec i s) (exec i (withPorts ps n p s)) := by
  have hreject (st : Status) : SameAnswer id (reject st s) (reject st (withPorts ps n p s)) :=
    ⟨_, _, rfl, rfl, rfl, rfl⟩
  have hrespond (v : Word) (u u' : State) (hu : u.regs = u'.regs) : SameAnswer id (respond v u) (respond v u') :=
    respond_sameAnswer (f := id) hu v
  cases i with
  | nop => exact hrespond _ _ _ rfl
  | rd addr =>
    rcases execRd_cases addr s with ⟨h, -⟩ | ⟨r, h, -⟩
    · simp only [exec, execRd, h, withPorts]
      exact hreject _
    · simp only [exec, execRd, h, withPorts]
      exact hrespond _ _ _ rfl
  | pidInit k gp gi gd => exact ite_sameAnswer (hreject _) (ite_sameAnswer (hreject _) (hrespond _ _ _ rfl))
  | pidStep k sp pv => exact ite_sameAnswer (hreject _) (ite_sameAnswer (hreject _) (hrespond _ _ _ rfl))
  | pidRsti k => exact ite_sameAnswer (hreject _) (ite_sameAnswer (hreject _) (hrespond _ _ _ rfl))
  | fsmCycle =>
    obtain ⟨c, hc, -⟩ := stateCfg_of_inv hs
    cases hcal : calActive s with
    | true =>
      exact ⟨_, _, execFsmCycle_in_session hcal, execFsmCycle_in_session (s := withPorts ps n p s) hcal, rfl, rfl⟩
    | false =>
      exact ⟨_, _, execFsmCycle_of_stateCfg hcal hc,
        execFsmCycle_of_stateCfg (s := withPorts ps n p s) hcal hc, rfl, rfl⟩
  | senseLd m => exact hrespond _ _ _ rfl
  | clsSample k raw => exact ite_sameAnswer (hreject _) (ite_sameAnswer (hreject _) (hrespond _ _ _ rfl))
  | clsClassify => exact ite_sameAnswer (hreject _) (hrespond _ _ _ rfl)
  | calBegin => exact ite_sameAnswer (hreject _) (hrespond _ _ _ rfl)
  | calUpdate => exact ite_sameAnswer (hreject _) (hrespond _ _ _ rfl)
  | calEnd => exact ite_sameAnswer (hreject _) (hrespond _ _ _ rfl)
  | calLoad k lo hi =>
    exact ite_sameAnswer (hreject _) (ite_sameAnswer (hreject _) (ite_sameAnswer (hreject _) (hrespond _ _ _ rfl)))
  | evTick | evEnc | evBoth | reset => cases hi

/-- So are the registers that an event or the reset leaves. -/
theorem exec_event_sameRegs {i : Instr} (hi : i.isCommand = false) (s : State) (ps : List Presentation) (n : Nat)
    (p : Option Response) : ∃ t t', exec i s = .next t ∧ exec i (withPorts ps n p s) = .next t' ∧ t.regs = t'.regs := by
  cases i with
  | evTick | evEnc | evBoth | reset => exact ⟨_, _, rfl, rfl, rfl⟩
  | _ => cases hi

/-- Two states with the same registers and configuration differ in the model's other fields only. -/
theorem eq_withPorts {s s' : State} (hregs : s.regs = s'.regs) (hcfg : s.cfg = s'.cfg) :
    s' = withPorts s'.pending s'.choices s'.resp s := by
  rw [withPorts, hregs, hcfg]

/-- Settles O56: commands and the other operations apart, in two states that differ in the model's own fields. -/
theorem noHiddenState : Obligations.NoHiddenState := by
  intro i s s' hs hregs hcfg
  rw [eq_withPorts hregs hcfg]
  cases hi : i.isCommand with
  | true =>
    obtain ⟨t, t', ht, ht', hr, hp⟩ := exec_command_sameAnswer hi hs s'.pending s'.choices s'.resp
    exact ⟨t, t', ht, ht', hr, fun _ => hp⟩
  | false =>
    obtain ⟨t, t', ht, ht', hr⟩ := exec_event_sameRegs hi s s'.pending s'.choices s'.resp
    exact ⟨t, t', ht, ht', hr, fun h => absurd h (by decide)⟩

end Sys2Proof.Proofs
end

section
/-! PROOFS. The memory page (`spec/20_memory.md`): the register read space (R62, R65), and the order in which the
requests that the host makes on the ports are performed (R66, R69, R70). -/

namespace Sys2Proof.Proofs

open Sys2Proof.Machine Sys2Proof.Laws

/-! ### `RD` (R251) -/

theorem exec_rd_of_mapped {s : State} {addr : Byte} {r : ReadReg} (h : readTarget s.cfg addr = some r) :
    exec (.rd addr) s = .next (answer .ok (regRead s r) s) := by
  simp only [exec, execRd, h, respond_eq]

theorem exec_rd_of_unmapped {s : State} {addr : Byte} (h : readTarget s.cfg addr = none) :
    exec (.rd addr) s = .next (answer .badIndex 0 s) := by
  simp only [exec, execRd, h, reject_eq]

/-- Settles O20: what an address names depends on the configuration alone, and the value of what it names on the
registers alone, so the response of the first read plays no part in the second. -/
theorem readsHaveNoSideEffect : Obligations.ReadsHaveNoSideEffect := by
  intro s addr
  cases h : readTarget s.cfg addr with
  | none => exact ⟨_, exec_rd_of_unmapped h, exec_rd_of_unmapped h⟩
  | some r => exact ⟨_, exec_rd_of_mapped h, exec_rd_of_mapped h⟩

/-! ### What each address names (R62) -/

section
variable {cfg : Config}

theorem readTarget_ofNat {n : Nat} (h : n < 256) : readTarget cfg (BitVec.ofNat 8 n) = readTargetAt cfg n := by
  rw [readTarget, indexOf, BitVec.toNat_ofNat, Nat.mod_eq_of_lt h]

theorem readTarget_pid (hcfg : cfg.wf = true) {k j : Nat} (hk : k < cfg.nPid) (hj : j < 8) :
    readTarget cfg (BitVec.ofNat 8 (0x10 + 8 * k + j)) = some (.pid k (pidFieldAt j)) := by
  obtain ⟨⟨-, hn⟩, -⟩ := wf_ranges hcfg
  have hquot : (0x10 + 8 * k + j - 0x10) / 8 = k := by omega
  have hrem : (0x10 + 8 * k + j - 0x10) % 8 = j := by omega
  rw [readTarget_ofNat (by omega)]
  simp (disch := omega) only [readTargetAt, if_neg, if_pos, hquot, hrem]

theorem readTarget_sensor {i : Nat} (hi : i < 8) :
    readTarget cfg (BitVec.ofNat 8 (0x80 + i)) = some (.raw i) ∧
    readTarget cfg (BitVec.ofNat 8 (0x88 + i)) = some (.cmin i) ∧
    readTarget cfg (BitVec.ofNat 8 (0x90 + i)) = some (.cmax i) ∧
    readTarget cfg (BitVec.ofNat 8 (0x98 + i)) = some (.thr i) := by
  simp (disch := omega) only [readTarget_ofNat, readTargetAt, if_neg, if_pos, Nat.add_sub_cancel_left, and_self]

/-- The three unmapped ranges; the second starts after the last of the `N_PID` contexts. -/
theorem readTarget_unmapped (hcfg : cfg.wf = true) {addr : Byte}
    (h : (0x09 ≤ addr.toNat ∧ addr.toNat < 0x10) ∨ (0x10 + 8 * cfg.nPid ≤ addr.toNat ∧ addr.toNat < 0x80) ∨
      0xA0 ≤ addr.toNat) : readTarget cfg addr = none := by
  obtain ⟨⟨hn, -⟩, -⟩ := wf_ranges hcfg
  rw [readTarget, indexOf]
  rcases h with ⟨hlo, hhi⟩ | ⟨hlo, hhi⟩ | hlo
  · simp (disch := omega) only [readTargetAt, if_neg, if_pos]
  · by_cases hpid : addr.toNat < 0x50
    · simp (disch := omega) only [readTargetAt, if_neg, if_pos]
    · simp (disch := omega) only [readTargetAt, if_neg, if_pos]
  · simp (disch := omega) only [readTargetAt, if_neg]

end

theorem exec_rd_pid {s : State} {k : Nat} {c : PidCtx} (hcfg : s.cfg.wf = true) (hk : k < s.cfg.nPid)
    (hc : s.regs.pid[k]? = some c) {j : Nat} (hj : j < 8) :
    exec (.rd (BitVec.ofNat 8 (0x10 + 8 * k + j))) s =
      .next (answer .ok (pidFieldValue c (pidFieldAt j)) s) := by
  rw [exec_rd_of_mapped (readTarget_pid hcfg hk hj), regRead, pidCtx_of_getElem? hc]

/-- Settles O19, one range of the address map after the other: the nine single registers, the PID contexts, the sensors,
and the addresses that name nothing. -/
theorem readSpaceGivesEveryRegister : Obligations.ReadSpaceGivesEveryRegister := by
  refine ⟨fun s => ?_, fun s k c hcfg hk hc => ?_, fun s i x hi hx => ?_,
    fun s addr hcfg h => exec_rd_of_unmapped (readTarget_unmapped hcfg h)⟩
  · exact ⟨exec_rd_of_mapped (r := .state) rfl, exec_rd_of_mapped (r := .steer) rfl,
      exec_rd_of_mapped (r := .speedL) rfl, exec_rd_of_mapped (r := .speedR) rfl,
      exec_rd_of_mapped (r := .sense) rfl, exec_rd_of_mapped (r := .ticks) rfl,
      exec_rd_of_mapped (r := .pulses) rfl, exec_rd_of_mapped (r := .status) rfl,
      exec_rd_of_mapped (r := .cmdOut) rfl⟩
  · have field {j : Nat} (hj : j < 8) := exec_rd_pid hcfg hk hc hj
    exact ⟨field (by decide), field (by decide), field (by decide), field (by decide),
      field (by decide), field (by decide), field (by decide), field (by decide)⟩
  · obtain rfl := sensor_of_getElem? hx
    obtain ⟨hraw, hcmin, hcmax, hthr⟩ := readTarget_sensor (cfg := s.cfg) hi
    exact ⟨exec_rd_of_mapped hraw, exec_rd_of_mapped hcmin, exec_rd_of_mapped hcmax, exec_rd_of_mapped hthr⟩

/-! ### Simultaneous requests (R69) -/

/-- Settles O12: the request served first is one of those made, whatever the free value, and serving it is performing
it. -/
theorem stepServesOneOfSimultaneousRequests : Obligations.StepServesOneOfSimultaneousRequests := by
  intro s p ps hcfg hp hlen
  rcases fetch_cases s with ⟨h, -⟩ | ⟨q, qs, hq, h⟩
  · rw [hp] at h
    cases h
  · cases hp.symm.trans hq
    rcases h with ⟨h, -⟩ | ⟨r, h, -⟩ | ⟨-, r, hr, hf⟩
    · simp [h] at hlen
    · simp [h] at hlen
    · exact ⟨r, hr, by rw [step_of_wf hcfg, hf]; exact serve_perform r _⟩

/-! ### What a request does, in states that differ in the model's own fields -/

/-- Two states of the same block: the registers and the configuration agree, and the model's own fields need not (R36,
logs 2 to 4). -/
def SameBlock (s s' : State) : Prop := s.regs = s'.regs ∧ s.cfg = s'.cfg

section
variable {s s' t : State} {r : Request}

theorem perform_frame (h : perform r s = .next t) : t.cfg = s.cfg ∧ t.pending = s.pending := by
  cases hd : decode r with
  | ok i =>
    rw [perform_of_decode hd] at h
    obtain ⟨hcfg, hpending, -⟩ := (exec_leaves h).frame
    exact ⟨hcfg, hpending⟩
  | error e =>
    rw [perform, hd] at h
    cases e <;> cases h <;> exact ⟨rfl, rfl⟩

/-- A request does the same to the block whatever stands in the model's own fields. -/
theorem perform_sameBlock (hs : State.Inv s) (h : SameBlock s s') (r : Request) :
    ∃ t t', perform r s = .next t ∧ perform r s' = .next t' ∧ SameBlock t t' := by
  obtain ⟨hregs, hcfg⟩ := h
  cases hd : decode r with
  | ok i =>
    simp only [perform_of_decode hd]
    obtain ⟨t, t', ht, ht', hr, -⟩ := noHiddenState i s s' hs hregs hcfg
    refine ⟨t, t', ht, ht', hr, ?_⟩
    rw [(exec_leaves ht).frame.1, (exec_leaves ht').frame.1, hcfg]
  | error e =>
    simp only [perform, hd]
    cases e <;> exact ⟨_, _, rfl, rfl, hregs, hcfg⟩

theorem performAll_cons (h : perform r s = .next t) (l : List Request) :
    performAll (r :: l) s = performAll l t := by
  rw [performAll, h]

theorem performAll_sameBlock {l : List Request} {u : State} (hs : State.Inv s) (h : SameBlock s s')
    (hu : performAll l s = .next u) : ∃ u', performAll l s' = .next u' ∧ SameBlock u u' := by
  induction l generalizing s s' with
  | nil =>
    cases hu
    exact ⟨s', rfl, h⟩
  | cons r l ih =>
    obtain ⟨t, t', ht, ht', hb⟩ := perform_sameBlock hs h r
    rw [performAll_cons ht] at hu
    rw [performAll_cons ht']
    exact ih (perform_keeps_inv hs ht) hb hu

end

/-! ### Runs that perform a list of requests -/

/-- `n` steps from `s` leave `ps` of the stream, and leave in the block what the requests of `l` do when performed one
after another (R66). -/
def RunPerforms (n : Nat) (l : List Request) (ps : List Presentation) (s : State) : Prop :=
  ∃ t u, Host.Core.run Sys2Proof.core n s = .next t ∧ t.pending = ps ∧ performAll l s = .next u ∧ SameBlock t u

theorem run_succ {M : Host.Core} {s t : M.State} (h : M.step s = .next t) (n : Nat) :
    M.run (n + 1) s = M.run n t := by
  rw [Host.Core.run, h]

theorem RunPerforms.nil {s : State} {ps : List Presentation} (hp : s.pending = ps) : RunPerforms 0 [] ps s :=
  ⟨s, s, rfl, hp, rfl, rfl, rfl⟩

/-- A step that performs `r` completes, and a run that performs `l` after it makes a run that performs `r` and then
`l`. -/
theorem step_then_run {s : State} {r : Request} {qs : List Presentation} {k : Nat} (hs : State.Inv s)
    (hstep : step s = perform r (withPorts qs k none s)) :
    ∃ t, State.Inv t ∧ t.pending = qs ∧
      ∀ n l ps, RunPerforms n l ps t → RunPerforms (n + 1) (r :: l) ps s := by
  obtain ⟨v, t, hv, ht, hregs, hcfg⟩ := perform_sameBlock hs (s' := withPorts qs k none s) ⟨rfl, rfl⟩ r
  have htinv : State.Inv t := perform_keeps_inv (s := withPorts qs k none s) hs ht
  refine ⟨t, htinv, (perform_frame ht).2, fun n l ps ⟨x, u, hrun, hps, hall, hxregs, hxcfg⟩ => ?_⟩
  obtain ⟨u', hall', huregs, hucfg⟩ := performAll_sameBlock htinv ⟨hregs.symm, hcfg.symm⟩ hall
  exact ⟨x, u', by rw [run_succ (M := Sys2Proof.core) (hstep.trans ht), hrun], hps, by rw [performAll_cons hv, hall'],
    hxregs.trans huregs, hxcfg.trans hucfg⟩

/-- Requests each alone in its instant are performed in the order of the instants, one at each step (R66, R70). -/
theorem runPerforms_stream {l : List Request} {ps : List Presentation} {s : State} (hs : State.Inv s)
    (hl : ∀ r ∈ l, requests (present r) = [r]) (hp : s.pending = l.map present ++ ps) :
    RunPerforms l.length l ps s := by
  induction l generalizing s with
  | nil =>
    exact .nil hp
  | cons r l ih =>
    obtain ⟨hr, hl⟩ := List.forall_mem_cons.1 hl
    obtain ⟨t, ht, hpt, hrun⟩ := step_then_run hs (step_of_single_request hs.1 hp hr)
    exact hrun _ _ _ (ih ht hl hpt)

/-- Settles O14: the run with one step for each instant is the one that performs their requests in that order. -/
theorem streamIsPerformedInOrder : Obligations.StreamIsPerformedInOrder := by
  intro s l ps hs hl hp
  obtain ⟨t, u, hrun, hps, hall, hregs, -⟩ := runPerforms_stream hs hl hp
  exact ⟨t, u, hrun, hps, hall, hregs⟩

/-! ### One instant -/

/-- The events that a value of the event port requests, the two lines apart (R83, R233). -/
def lineEvents (ev : BitVec 2) : List Request :=
  (if ev.getLsbD 0 then [.event 0b01] else []) ++ (if ev.getLsbD 1 then [.event 0b10] else [])

theorem lineRequests_eq (p : Presentation) :
    lineRequests p = commandRequests p ++ (lineEvents p.ev ++ resetRequests p) := by
  simp only [lineRequests, lineEvents, List.append_assoc]

theorem eventRequests_eq_lineEvents_or (p : Presentation) :
    eventRequests p = lineEvents p.ev ∨ p = present (.event 0b11) := by
  obtain ⟨cmd, ev, rst⟩ := p
  rcases event_values ev with rfl | rfl | rfl | rfl
  · exact .inl (by simp [eventRequests, lineEvents])
  · exact .inl (by simp [eventRequests, lineEvents])
  · exact .inl (by simp [eventRequests, lineEvents])
  · cases cmd with
    | some w => exact .inl (by simp [eventRequests, lineEvents])
    | none =>
      rcases reset_values rst with rfl | rfl
      · exact .inr rfl
      · exact .inl (by simp [eventRequests, lineEvents])

/-- The two event lines make one request only where nothing else is requested (R233, log 12). -/
theorem requests_eq_lineRequests_or (p : Presentation) :
    requests p = lineRequests p ∨ p = present (.event 0b11) := by
  refine (eventRequests_eq_lineEvents_or p).imp_left fun h => ?_
  rw [requests, lineRequests_eq, h, List.append_assoc]

theorem mem_commandRequests {p : Presentation} {r : Request} :
    r ∈ commandRequests p ↔ ∃ w, p.cmd = some w ∧ r = .command w := by
  cases h : p.cmd <;> simp [commandRequests, h]

theorem mem_resetRequests {p : Presentation} {r : Request} :
    r ∈ resetRequests p ↔ p.rst = 1 ∧ r = .resetLine 1 := by
  by_cases h : p.rst = 1 <;> simp [resetRequests, h]

theorem exists_eq_event_of_mem_lineEvents {ev : BitVec 2} {r : Request} (h : r ∈ lineEvents ev) :
    ∃ e, r = .event e := by
  rcases List.mem_append.1 h with h | h
  · exact ⟨_, List.mem_singleton.1 (List.mem_ite_nil_right.1 h).2⟩
  · exact ⟨_, List.mem_singleton.1 (List.mem_ite_nil_right.1 h).2⟩

/-- Taking one line's event out of the value of the event port leaves the other line's. -/
theorem lineEvents_withdraw : ∀ ev e : BitVec 2, .event e ∈ lineEvents ev →
    (.event e :: lineEvents (ev &&& ~~~e)).Perm (lineEvents ev) := by decide

/-- Taking a request out of an instant takes it, once, out of the instant's requests (R267). -/
theorem lineRequests_withdraw {p : Presentation} {r : Request} (h : r ∈ lineRequests p) :
    (r :: lineRequests (withdraw p r)).Perm (lineRequests p) := by
  rw [lineRequests_eq, List.mem_append, List.mem_append] at h
  rw [lineRequests_eq p, lineRequests_eq]
  rcases h with h | h | h
  · obtain ⟨w, hw, rfl⟩ := mem_commandRequests.1 h
    simp only [commandRequests, hw]
    exact .refl _
  · obtain ⟨e, rfl⟩ := exists_eq_event_of_mem_lineEvents h
    exact List.perm_middle.symm.trans (((lineEvents_withdraw p.ev e h).append_right _).append_left _)
  · obtain ⟨hrst, rfl⟩ := mem_resetRequests.1 h
    rw [show resetRequests p = [.resetLine 1] from if_pos hrst, ← List.append_assoc (commandRequests p),
      show resetRequests (withdraw p (.resetLine 1)) = [] from rfl, List.append_nil]
    exact (List.perm_append_singleton _ _).symm

/-- With one of several requests taken out, the instant stays at the front of the stream. -/
theorem remaining_withdraw {p : Presentation} (hp : requests p = lineRequests p) (hlen : 2 ≤ (requests p).length)
    {r : Request} (hr : r ∈ requests p) (ps : List Presentation) :
    remaining (withdraw p r) ps = withdraw p r :: ps := by
  rw [hp] at hlen hr
  have hperm := (lineRequests_withdraw hr).length_eq
  refine if_neg fun h => ?_
  rw [List.isEmpty_iff] at h
  rcases requests_eq_lineRequests_or (withdraw p r) with h' | h'
  · rw [← h', h, List.length_singleton] at hperm
    omega
  · rw [h'] at h
    cases h

/-- One step performs both events of an instant that requests nothing else: a tick and an edge (R233). -/
theorem runPerforms_both {s : State} {ps : List Presentation} (hcfg : s.cfg.wf = true)
    (hp : s.pending = present (.event 0b11) :: ps) : RunPerforms 1 [.event 0b01, .event 0b10] ps s := by
  have hstep := step_of_single_request hcfg hp rfl
  exact ⟨_, _, run_succ (M := Sys2Proof.core) hstep 0, rfl, rfl, rfl, rfl⟩

/-- An instant that requests nothing is over after one step (R276). -/
theorem runPerforms_idle {s : State} {p : Presentation} {ps : List Presentation} (hcfg : s.cfg.wf = true)
    (hp : s.pending = p :: ps) (hr : requests p = []) : RunPerforms 1 [] ps s := by
  have hstep : step s = .next { s with pending := ps, resp := none } := by
    rw [step_of_wf hcfg]
    simp only [fetch, hp, hr]
  exact ⟨_, s, run_succ (M := Sys2Proof.core) hstep 0, rfl, rfl, rfl, rfl⟩

/-- The requests of an instant are performed in some order, by induction on their number: after the step that serves one
of several, the instant at the front of the stream is the one without it. -/
theorem exists_runPerforms_instant {m : Nat} {p : Presentation} {ps : List Presentation} {s : State}
    (hs : State.Inv s) (hp : s.pending = p :: ps) (hm : (lineRequests p).length = m) :
    ∃ l n, l.Perm (lineRequests p) ∧ RunPerforms n l ps s := by
  induction m generalizing p s with
  | zero =>
    have hnil := List.length_eq_zero_iff.1 hm
    rcases requests_eq_lineRequests_or p with hr | rfl
    · exact ⟨[], 1, by rw [hnil], runPerforms_idle hs.1 hp (hr.trans hnil)⟩
    · cases hm
  | succ m ih =>
    rcases requests_eq_lineRequests_or p with hr | rfl
    · rcases Nat.eq_zero_or_pos m with rfl | hpos
      · obtain ⟨r, hone⟩ := List.length_eq_one_iff.1 hm
        obtain ⟨t, -, hpt, hrun⟩ := step_then_run hs (step_of_single_request hs.1 hp (hr.trans hone))
        exact ⟨[r], 1, by rw [hone], hrun 0 [] ps (.nil hpt)⟩
      · have hlen : 2 ≤ (requests p).length := by
          rw [hr, hm]
          omega
        obtain ⟨r, hmem, hstep⟩ := stepServesOneOfSimultaneousRequests s p ps hs.1 hp hlen
        obtain ⟨t, ht, hpt, hrun⟩ := step_then_run hs hstep
        rw [remaining_withdraw hr hlen hmem] at hpt
        have hperm := lineRequests_withdraw (hr ▸ hmem)
        obtain ⟨l, n, hl, h⟩ := ih ht hpt (Nat.succ.inj (hperm.length_eq.trans hm))
        exact ⟨r :: l, n + 1, (hl.cons r).trans hperm, hrun n l ps h⟩
    · exact ⟨_, 1, .refl _, runPerforms_both hs.1 hp⟩

/-- Settles O13: the order is the one in which the free value serves the requests; `EV = 0b11` alone stands in it as a
tick and then an edge. -/
theorem instantIsPerformedInSomeOrder : Obligations.InstantIsPerformedInSomeOrder := by
  intro s p ps hs hp
  obtain ⟨l, n, hl, t, u, hrun, hps, hall, hregs, -⟩ := exists_runPerforms_instant hs hp rfl
  exact ⟨l, n, t, u, hl, hrun, hps, hall, hregs⟩

end Sys2Proof.Proofs
end

section
/-! PROOFS. The encoding page (`spec/30_encoding.md`): the decoder and the encoder are inverse to each other, the words of
a row are those of the match and mask table (R87), every other word is rejected (R88), and every command is checked in
the order of R90. -/

namespace Sys2Proof.Proofs

open Sys2Proof.Machine Sys2Proof.Laws

/-! ### A command word from its fields (R81) -/

/-- A command word is the one put together from the values of its five fields. -/
theorem commandWord_eq_of_fields {w : CmdWord} {op k : Byte} {a b c : Half} (hop : opField w = op) (hk : kField w = k)
    (ha : aField w = a) (hb : bField w = b) (hc : cField w = c) : commandWord op k a b c = w := by
  rw [← hop, ← hk, ← ha, ← hb, ← hc]
  exact commandWord_fields w

/-! ### Decode after encode -/

/-- The decoder on a word with the opcode of a row and zeros in the row's must-be-zero fields (R86). -/
theorem decodeCommand_row {w : CmdWord} {o : Opcode} (hop : opField w = o.code) (hm : o.mbzOk w = true) :
    decodeCommand w = .ok (o.assemble w) := by
  rw [decodeCommand_of_op hop, if_pos hm]

/-- The word put together for a row's operands is read as the instruction that the row assembles from it. -/
theorem decodeCommand_commandWord (o : Opcode) {k : Byte} {a b c : Half} {i : Instr}
    (hm : o.mbzOk (commandWord o.code k a b c) = true) (hi : o.assemble (commandWord o.code k a b c) = i) :
    decodeCommand (commandWord o.code k a b c) = .ok i :=
  hi ▸ decodeCommand_row (opField_commandWord _ _ _ _ _) hm

/-- Settles O3, one row of R86 after the other: the fields of the word are the operands it was put together from. -/
theorem decodeEncodeAgree : Obligations.DecodeEncodeAgree := by
  intro i
  cases i with
  | rd addr => exact decodeCommand_commandWord .rd (by simp [Opcode.mbzOk]) (by simp [Opcode.assemble])
  | pidInit k p i d => exact decodeCommand_commandWord .pidInit rfl (by simp [Opcode.assemble])
  | pidStep k sp pv => exact decodeCommand_commandWord .pidStep (by simp [Opcode.mbzOk]) (by simp [Opcode.assemble])
  | pidRsti k => exact decodeCommand_commandWord .pidRsti (by simp [Opcode.mbzOk]) (by simp [Opcode.assemble])
  | senseLd m => exact decodeCommand_commandWord .senseLd (by simp [Opcode.mbzOk]) (by simp [Opcode.assemble])
  | clsSample n raw => exact decodeCommand_commandWord .clsSample (by simp [Opcode.mbzOk]) (by simp [Opcode.assemble])
  | calLoad n lo hi => exact decodeCommand_commandWord .calLoad (by simp [Opcode.mbzOk]) (by simp [Opcode.assemble])
  | nop | fsmCycle | clsClassify | calBegin | calUpdate | calEnd | evTick | evEnc | evBoth | reset => rfl

/-- Settles O1: each word of R93 is the encoding of the command beside it (`0x8000` is -32768 and `0xFFFF` is -1). -/
theorem workedEncodingsDecode : Obligations.WorkedEncodingsDecode :=
  ⟨decodeEncodeAgree .nop, decodeEncodeAgree (.rd 0x05), decodeEncodeAgree (.pidInit 0 10 0 0),
    decodeEncodeAgree (.pidInit 1 256 16 512), decodeEncodeAgree (.pidStep 0 0 2979),
    decodeEncodeAgree (.pidStep 1 0x8000 32767),
    decodeEncodeAgree (.pidStep 0 100 0xFFFF), decodeEncodeAgree (.pidRsti 1),
    decodeEncodeAgree .fsmCycle, decodeEncodeAgree (.senseLd 0b00011000), decodeEncodeAgree (.clsSample 3 199),
    decodeEncodeAgree .clsClassify, decodeEncodeAgree .calBegin, decodeEncodeAgree .calUpdate,
    decodeEncodeAgree .calEnd, decodeEncodeAgree (.calLoad 0 100 300)⟩

/-- Settles O2: the lines' operations are decoded from their encodings, and two values stand for none. -/
theorem eventAndResetLinesDecode : Obligations.EventAndResetLinesDecode :=
  ⟨decodeEncodeAgree .evTick, decodeEncodeAgree .evEnc, decodeEncodeAgree .evBoth, rfl, decodeEncodeAgree .reset, rfl⟩

/-! ### Encode after decode -/

/-- A row's word is the encoding of what the row assembles from it: the operands fill the fields that are not zero. -/
theorem encode_assemble {w : CmdWord} {o : Opcode} (hop : opField w = o.code) (hm : o.mbzOk w = true) :
    encode (o.assemble w) = .command w := by
  cases o <;> simp only [Opcode.mbzOk, Bool.and_eq_true, beq_iff_eq] at hm <;> refine congrArg Request.command ?_
  case nop | fsmCycle | clsClassify | calBegin | calUpdate | calEnd =>
    obtain ⟨⟨⟨hk, ha⟩, hb⟩, hc⟩ := hm
    exact commandWord_eq_of_fields hop hk ha hb hc
  case rd | pidRsti =>
    obtain ⟨⟨ha, hb⟩, hc⟩ := hm
    exact commandWord_eq_of_fields hop rfl ha hb hc
  case pidInit => exact commandWord_eq_of_fields hop rfl rfl rfl rfl
  case pidStep | calLoad => exact commandWord_eq_of_fields hop rfl rfl rfl hm
  case senseLd =>
    obtain ⟨⟨⟨hk, ha⟩, hb⟩, hc⟩ := hm
    exact commandWord_eq_of_fields hop hk ha hb (maskField_cLow hc).symm
  case clsSample =>
    obtain ⟨ha, hb⟩ := hm
    exact commandWord_eq_of_fields hop rfl ha hb rfl

/-- Settles O4: a command word by its row, the values of the other two ports one by one. -/
theorem encodeDecodeAgree : Obligations.EncodeDecodeAgree := by
  rintro (w | ev | rst) i h
  · obtain ⟨o, hop, hm, rfl⟩ := decodeCommand_ok h
    exact encode_assemble hop hm
  · rcases event_values ev with rfl | rfl | rfl | rfl <;> cases h <;> rfl
  · rcases reset_values rst with rfl | rfl <;> cases h
    rfl

/-! ### The match and mask table (R87) -/

/-- `c[15:8]` is zero exactly when the mask `0xFF00` leaves nothing of the `c` field. -/
theorem cField_and_high_eq_zero_iff {w : CmdWord} : cField w &&& 0xFF00 = 0 ↔ cHigh w = 0 := by
  constructor
  · intro h
    apply BitVec.eq_of_getLsbD_eq
    intro i hi
    have hbit := congrArg (·.getLsbD (i + 8)) h
    have hmask : (0xFF00 : Half).getLsbD (i + 8) = true := by interval_cases i <;> rfl
    rw [BitVec.getLsbD_and, hmask, cField_getLsbD] at hbit
    simpa using hbit
  · intro h
    rw [← maskField_cLow h]
    exact maskField_and_high _

/-- A word is in a row exactly when its opcode is the row's and the parts of the row's mask leave nothing of the other
four fields. -/
theorem row_iff_fields {w : CmdWord} {o : Opcode} (mk : Byte) (ma mb mc : Half)
    (hm : o.mask = commandWord 0xFF mk ma mb mc) (hp : o.pattern = commandWord o.code 0 0 0 0) :
    w &&& o.mask = o.pattern ↔
      opField w = o.code ∧ kField w &&& mk = 0 ∧ aField w &&& ma = 0 ∧ bField w &&& mb = 0 ∧ cField w &&& mc = 0 := by
  rw [hm, hp, ← and_ones_8 (opField w), ← commandWord_inj, ← commandWord_and, commandWord_fields]
  rfl

/-- The mask and match columns of R87 say what the `op` and MBZ columns of R86 say. -/
theorem row_iff (w : CmdWord) (o : Opcode) : w &&& o.mask = o.pattern ↔ opField w = o.code ∧ o.mbzOk w = true := by
  cases o
  case nop | fsmCycle | clsClassify | calBegin | calUpdate | calEnd =>
    refine (row_iff_fields 0xFF 0xFFFF 0xFFFF 0xFFFF rfl rfl).trans ?_
    simp [Opcode.mbzOk, and_ones_8, and_ones_16, and_assoc]
  case rd | pidRsti =>
    refine (row_iff_fields 0 0xFFFF 0xFFFF 0xFFFF rfl rfl).trans ?_
    simp [Opcode.mbzOk, and_ones_16, and_assoc]
  case pidInit =>
    refine (row_iff_fields 0 0 0 0 rfl rfl).trans ?_
    simp [Opcode.mbzOk]
  case pidStep | calLoad =>
    refine (row_iff_fields 0 0 0 0xFFFF rfl rfl).trans ?_
    simp [Opcode.mbzOk, and_ones_16]
  case senseLd =>
    refine (row_iff_fields 0xFF 0xFFFF 0xFFFF 0xFF00 rfl rfl).trans ?_
    rw [cField_and_high_eq_zero_iff]
    simp [Opcode.mbzOk, and_ones_8, and_ones_16, and_assoc]
  case clsSample =>
    refine (row_iff_fields 0 0xFFFF 0xFFFF 0 rfl rfl).trans ?_
    simp [Opcode.mbzOk, and_ones_16]

/-- Two opcodes with the same code are the same. -/
theorem code_injective : Function.Injective Opcode.code := fun o o' h =>
  Option.some.inj (by rw [← ofByte_code o, h, ofByte_code])

/-- Settles O5: what the decoder reads is what the row that the word is in assembles. -/
theorem commandWordsMatchTable : Obligations.CommandWordsMatchTable := by
  refine ⟨fun w o => ⟨?_, fun h => ?_⟩, fun w o o' h h' => ?_, fun w h => ?_⟩
  · rintro ⟨i, hd, hi⟩
    obtain ⟨o', hop, hm, rfl⟩ := decodeCommand_ok hd
    obtain rfl : o' = o := Option.some.inj ((assemble_opcode w o').symm.trans hi)
    exact (row_iff w o').2 ⟨hop, hm⟩
  · obtain ⟨hop, hm⟩ := (row_iff w o).1 h
    exact ⟨_, decodeCommand_row hop hm, assemble_opcode w o⟩
  · exact code_injective (((row_iff w o).1 h).1.symm.trans ((row_iff w o').1 h').1)
  · cases hd : decodeCommand w with
    | error e => exact ⟨e, rfl⟩
    | ok i =>
      obtain ⟨o, hop, hm, -⟩ := decodeCommand_ok hd
      exact absurd ((row_iff w o).2 ⟨hop, hm⟩) (h o)

/-! ### Illegal words (R88) -/

theorem decodeCommand_reserved {w : CmdWord} (h : Opcode.ofByte (opField w) = none) :
    decodeCommand w = .error .reservedOpcode := by
  rw [decodeCommand, h]

/-- A word of any row's opcode that is not the row's is rejected. -/
theorem mbzRejected_of_opcode (o : Opcode) : mbzRejected o := by
  intro s w hop h
  have hm : ¬ o.mbzOk w = true := fun hm => h ((row_iff w o).2 ⟨hop, hm⟩)
  exact perform_of_decodeCommand_error (by rw [decodeCommand_of_op hop, if_neg hm]) s

/-- Below the `op` field the match column of R87 is zero. -/
theorem pattern_and_fields (o : Opcode) : o.pattern &&& 0x00FFFFFFFFFFFFFF = 0 := by cases o <;> rfl

theorem ofByte_eq_none_iff (v : Byte) : Opcode.ofByte v = none ↔ ∀ o ∈ Opcode.all, o.code ≠ v := by
  simp [Opcode.ofByte]

/-- The reserved opcodes are the ones between the four groups of R86 and above them. -/
theorem ofByte_eq_none_iff_ranges (v : Byte) : Opcode.ofByte v = none ↔
    (0x02 ≤ v ∧ v ≤ 0x0F) ∨ (0x13 ≤ v ∧ v ≤ 0x1F) ∨ (0x22 ≤ v ∧ v ≤ 0x2F) ∨ 0x36 ≤ v := by
  rw [ofByte_eq_none_iff]
  simp only [Opcode.all, List.forall_mem_cons, Opcode.code, List.not_mem_nil, false_imp_iff, implies_true, and_true]
  bv_omega

/-- Of the 256 opcodes all but the 13 of R86 are reserved. -/
theorem reserved_count : (List.range 256).countP (fun n => (Opcode.ofByte (BitVec.ofNat 8 n)).isNone) = 243 := by
  decide +kernel

/-- Settles O6: in every case the decoder rejects the word, and a rejected word is answered `ILLEGAL_OP`. -/
theorem illegalWordsRejected : Obligations.IllegalWordsRejected := by
  refine ⟨fun s w h => ?_, fun s w o h hw => ?_, ofByte_eq_none_iff_ranges, reserved_count, fun s => ?_, fun s => ?_⟩
  · exact perform_of_decodeCommand_error (decodeCommand_reserved h) s
  · refine mbzRejected_of_opcode o s w (code_of_ofByte h).symm fun hrow => hw ?_
    rw [hrow]
    exact pattern_and_fields o
  · exact perform_of_decode (i := .nop) rfl s
  · exact perform_of_decodeCommand_error (e := .reservedOpcode) rfl s

/-! ### The order of the checks (R90) -/

/-- How a command `i` ends in the state `s`, with the first check of R90 that it fails after the match. -/
inductive CheckedEnd (i : Instr) (s : State) : Prop
  | badIndex (hidx : i.indexOk s.cfg = false) (h : exec i s = .next (answer .badIndex 0 s))
  | badOperand (hidx : i.indexOk s.cfg = true) (hops : i.operandsOk s.cfg = false)
      (h : exec i s = .next (answer .badOperand 0 s))
  | notReady (hidx : i.indexOk s.cfg = true) (hops : i.operandsOk s.cfg = true) (hready : ready s i = false)
      (h : exec i s = .next (answer .notReady 0 s))
  | performed (hidx : i.indexOk s.cfg = true) (hops : i.operandsOk s.cfg = true) (hready : ready s i = true)
      (v : Word) (u : State) (h : exec i s = .next (answer .ok v u))

theorem exec_checkedEnd {i : Instr} (hi : i.isCommand = true) {s : State} (hs : State.Inv s) : CheckedEnd i s := by
  cases i with
  | nop => exact .performed rfl rfl rfl _ _ rfl
  | rd addr =>
    rcases execRd_cases addr s with ⟨hr, h⟩ | ⟨r, hr, h⟩
    · exact .badIndex (congrArg Option.isSome hr) h
    · exact .performed (congrArg Option.isSome hr) rfl rfl _ _ h
  | pidInit k p i d =>
    rcases execPidInit_cases k p i d s with ⟨hk, h⟩ | ⟨hk, hg, h⟩ | ⟨hk, hg, h⟩
    · exact .badIndex hk h
    · exact .badOperand hk hg h
    · exact .performed hk hg rfl _ _ h
  | pidStep k sp pv =>
    rcases execPidStep_cases k sp pv s with ⟨hk, h⟩ | ⟨hk, hv, h⟩ | ⟨hk, hv, h⟩
    · exact .badIndex hk h
    · exact .notReady hk rfl hv h
    · exact .performed hk rfl hv _ _ h
  | pidRsti k =>
    rcases execPidRsti_cases k s with ⟨hk, h⟩ | ⟨hk, hv, h⟩ | ⟨hk, hv, h⟩
    · exact .badIndex hk h
    · exact .notReady hk rfl hv h
    · exact .performed hk rfl hv _ _ h
  | fsmCycle =>
    obtain ⟨c, hc, -⟩ := stateCfg_of_inv hs
    cases hcal : calActive s with
    | true => exact .notReady rfl rfl (congrArg not hcal) (execFsmCycle_in_session hcal)
    | false => exact .performed rfl rfl (congrArg not hcal) _ _ (execFsmCycle_of_stateCfg hcal hc)
  | senseLd m => exact .performed rfl rfl rfl _ _ rfl
  | clsSample n raw =>
    rcases execClsSample_cases n raw s with ⟨hn, h⟩ | ⟨hn, hraw, h⟩ | ⟨hn, hraw, h⟩
    · exact .badIndex hn h
    · exact .badOperand hn hraw h
    · exact .performed hn hraw rfl _ _ h
  | clsClassify =>
    rcases execClsClassify_cases s with ⟨hcal, h⟩ | ⟨hcal, h⟩
    · exact .notReady rfl rfl (congrArg not hcal) h
    · exact .performed rfl rfl (congrArg not hcal) _ _ h
  | calBegin =>
    rcases execCalBegin_cases s with ⟨hcal, h⟩ | ⟨hcal, h⟩
    · exact .notReady rfl rfl (congrArg not hcal) h
    · exact .performed rfl rfl (congrArg not hcal) _ _ h
  | calUpdate =>
    rcases execCalUpdate_cases s with ⟨hcal, h⟩ | ⟨hcal, h⟩
    · exact .notReady rfl rfl hcal h
    · exact .performed rfl rfl hcal _ _ h
  | calEnd =>
    rcases execCalEnd_cases s with ⟨hcal, h⟩ | ⟨hcal, h⟩
    · exact .notReady rfl rfl hcal h
    · exact .performed rfl rfl hcal _ _ h
  | calLoad n min max =>
    rcases execCalLoad_cases n min max s with ⟨hn, h⟩ | ⟨hn, hraw, h⟩ | ⟨hn, hraw, hcal, h⟩ | ⟨hn, hraw, hcal, h⟩
    · exact .badIndex hn h
    · exact .badOperand hn hraw h
    · exact .notReady hn hraw (congrArg not hcal) h
    · exact .performed hn hraw (congrArg not hcal) _ _ h
  | evTick | evEnc | evBoth | reset => cases hi

/-- Settles O7: a word that is no command fails the match, and a command ends with the first check that it fails. -/
theorem checkOrderOfEveryCommand : Obligations.CheckOrderOfEveryCommand := by
  intro s w hs
  cases hd : decodeCommand w with
  | error e => exact ⟨_, _, perform_of_decodeCommand_error hd s, rfl⟩
  | ok i =>
    rw [perform_of_decode (r := .command w) hd]
    cases exec_checkedEnd (isCommand_of_decodeCommand hd) hs with
    | badIndex hidx h => exact ⟨_, 0, h, by simp [hidx]⟩
    | badOperand hidx hops h => exact ⟨_, 0, h, by simp [hidx, hops]⟩
    | notReady hidx hops hready h => exact ⟨_, 0, h, by simp [hidx, hops, hready]⟩
    | performed hidx hops hready v u h => exact ⟨_, v, h, by simp [hidx, hops, hready]⟩

/-! ### Nothing requested (R276), and the response word (R82) -/

/-- A step at an instant that requests nothing is idle. -/
theorem step_of_no_request {s : State} {p : Presentation} {ps : List Presentation} (hcfg : s.cfg.wf = true)
    (hp : s.pending = p :: ps) (hr : requests p = []) : step s = .next { s with pending := ps, resp := none } := by
  rw [step_of_wf hcfg]
  simp only [fetch, hp, hr]

/-- Settles O15: an empty stream and an instant without a request both leave the fetch idle. -/
theorem idleStepChangesNoRegister : Obligations.IdleStepChangesNoRegister := by
  refine ⟨fun s hcfg hp => ?_, fun s ps hcfg hp => step_of_no_request hcfg hp rfl⟩
  rw [step_of_wf hcfg]
  simp only [fetch, hp]

/-- Settles O23: the response word is the two fields one after the other. -/
theorem responseWordFields : Obligations.ResponseWordFields := by
  refine ⟨fun p => ⟨?_, ?_⟩, rfl, rfl, rfl, rfl, rfl⟩
  · exact BitVec.extractLsb'_append_eq_left
  · exact BitVec.extractLsb'_append_eq_right

end Sys2Proof.Proofs
end

section
/-! PROOFS. The classifier (`spec/40_classifier.md`): what each of its commands answers and leaves (R111 to R116), the
bitmask against the thresholds (R110, R118, R119), and what a calibration session learns and excludes (R117, R121). -/

namespace Sys2Proof.Proofs

open Sys2Proof.Machine Sys2Proof.Laws

/-! ### The bitmask (R110, R112) -/

/-- Bit `i` of the bitmask is the classification of sensor `i`; the bits above the sensors are 0. -/
theorem classify_getLsbD (xs : List Sensor) (i : Nat) :
    (classify xs).getLsbD i = (decide (i < 8) && (xs[i]?.map dark).getD false) := by
  rw [classify, BitVec.getLsbD_ofNat, packBits_testBit, List.getElem?_map]

theorem classify_getLsbD_of_getElem? {xs : List Sensor} {i : Nat} {x : Sensor} (hi : i < 8) (hx : xs[i]? = some x) :
    (classify xs).getLsbD i = dark x := by
  rw [classify_getLsbD, hx, decide_eq_true hi]
  rfl

/-- A bit of the bitmask depends on its own sensor alone. -/
theorem classify_set_getLsbD_ne (xs : List Sensor) (x : Sensor) {i j : Nat} (h : j ≠ i) :
    (classify (xs.set i x)).getLsbD j = (classify xs).getLsbD j := by
  rw [classify_getLsbD, classify_getLsbD, List.getElem?_set_ne h.symm]

/-- No reading is below the threshold 0 (R118). -/
theorem dark_of_thr_zero {x : Sensor} (h : x.thr = 0) : dark x = false := by
  simp [dark, h]

theorem classify_of_thr_zero {xs : List Sensor} (h : ∀ x ∈ xs, x.thr = 0) : classify xs = 0 := by
  have hdark : xs.map dark = List.replicate xs.length false := by
    rw [List.map_congr_left fun x hx => dark_of_thr_zero (h x hx), List.map_const']
  rw [classify, hdark, packBits_replicate_false]
  rfl

/-! ### One sensor (R111 to R115) -/

theorem beginSensor_cmin_toNat {cfg : Config} (h : cfg.wf = true) (x : Sensor) :
    (beginSensor cfg x).cmin.toNat = 2 ^ cfg.rawW - 1 := rawMax_toNat h

theorem updateSensor_cmin_toNat (x : Sensor) : (updateSensor x).cmin.toNat = min x.cmin.toNat x.raw.toNat := by
  simp only [updateSensor]
  split <;> omega

theorem updateSensor_cmax_toNat (x : Sensor) : (updateSensor x).cmax.toNat = max x.cmax.toNat x.raw.toNat := by
  simp only [updateSensor]
  split <;> omega

theorem endSensor_thr_toNat (x : Sensor) : (endSensor x).thr.toNat = (x.cmin.toNat + x.cmax.toNat) / 2 :=
  average_toNat _ _

/-- What the update of every sensor leaves of the sensor `i`. -/
theorem eq_of_getElem?_map {xs : List Sensor} {f : Sensor → Sensor} {i : Nat} {x x' : Sensor} (hx : xs[i]? = some x)
    (hx' : (xs.map f)[i]? = some x') : x' = f x := by
  rw [List.getElem?_map, hx] at hx'
  exact (Option.some.inj hx').symm

theorem getElem?_set_of_getElem? {xs : List Sensor} {i : Nat} {x : Sensor} (hx : xs[i]? = some x) (y : Sensor) :
    (xs.set i y)[i]? = some y := by
  rw [List.getElem?_set_self', hx]
  rfl

theorem sensor_index_lt {s : State} (hs : State.Inv s) {i : Nat} {x : Sensor} (hx : s.regs.sensors[i]? = some x) :
    i < 8 := by
  obtain ⟨-, -, hlen, -⟩ := regsWf_iff.1 hs.2
  obtain ⟨hi, -⟩ := List.getElem?_eq_some_iff.1 hx
  exact lt_of_lt_of_eq hi hlen

/-! ### How each command of the classifier ends (R90, R111 to R116) -/

theorem sensorOk_eq_false {i : Byte} (h : 8 ≤ i.toNat) : sensorOk i = false := decide_eq_false (Nat.not_lt.2 h)

theorem rawOk_eq_false {cfg : Config} {v : Half} (h : 2 ^ cfg.rawW ≤ v.toNat) : rawOk cfg v = false :=
  decide_eq_false (Nat.not_lt.2 h)

section
variable {s : State}

theorem exec_clsSample {i : Byte} {raw : Half} (hi : i.toNat < 8) (hraw : raw.toNat < 2 ^ s.cfg.rawW) :
    exec (.clsSample i raw) s =
      .next (answer .ok 0 (setSensor s i.toNat { sensor s i.toNat with raw := raw })) := by
  rw [exec, execClsSample, sensorOk_iff.2 hi, rawOk_iff.2 hraw]
  rfl

/-- A sample replaces one reading (R111). -/
theorem exec_clsSample_sensors {i : Byte} {raw : Half} {x : Sensor} (hi : i.toNat < 8)
    (hraw : raw.toNat < 2 ^ s.cfg.rawW) (hx : s.regs.sensors[i.toNat]? = some x) :
    ∃ t, exec (.clsSample i raw) s = .next t ∧ t.cfg = s.cfg ∧ t.regs.calActive = s.regs.calActive ∧
      t.regs.sensors = s.regs.sensors.set i.toNat { x with raw := raw } := by
  obtain rfl := sensor_of_getElem? hx
  exact ⟨_, exec_clsSample hi hraw, rfl, rfl, rfl⟩

theorem exec_clsClassify_in_session (h : s.regs.calActive = true) :
    exec .clsClassify s = .next (answer .notReady 0 s) := by
  rw [exec, execClsClassify, calActive, h]
  rfl

theorem exec_clsClassify (h : s.regs.calActive = false) : exec .clsClassify s =
    .next (answer .ok ((classify s.regs.sensors).setWidth 32) (setSense s (classify s.regs.sensors))) := by
  rw [exec, execClsClassify, calActive, h]
  rfl

theorem exec_calBegin_in_session (h : s.regs.calActive = true) : exec .calBegin s = .next (answer .notReady 0 s) := by
  rw [exec, execCalBegin, calActive, h]
  rfl

theorem exec_calBegin (h : s.regs.calActive = false) :
    exec .calBegin s = .next (answer .ok 0 (setCalActive (mapSensors s (beginSensor s.cfg)) true)) := by
  rw [exec, execCalBegin, calActive, h]
  rfl

theorem exec_calUpdate_outside_session (h : s.regs.calActive = false) :
    exec .calUpdate s = .next (answer .notReady 0 s) := by
  rw [exec, execCalUpdate, calActive, h]
  rfl

theorem exec_calUpdate (h : s.regs.calActive = true) :
    exec .calUpdate s = .next (answer .ok 0 (mapSensors s updateSensor)) := by
  rw [exec, execCalUpdate, calActive, h]
  rfl

theorem exec_calEnd_outside_session (h : s.regs.calActive = false) :
    exec .calEnd s = .next (answer .notReady 0 s) := by
  rw [exec, execCalEnd, calActive, h]
  rfl

theorem exec_calEnd (h : s.regs.calActive = true) :
    exec .calEnd s = .next (answer .ok 0 (setCalActive (mapSensors s endSensor) false)) := by
  rw [exec, execCalEnd, calActive, h]
  rfl

theorem exec_calLoad_in_session {i : Byte} {lo hi : Half} (hn : sensorOk i = true)
    (hpair : (rawOk s.cfg lo && rawOk s.cfg hi) = true) (h : s.regs.calActive = true) :
    exec (.calLoad i lo hi) s = .next (answer .notReady 0 s) := by
  rw [exec, execCalLoad, hn, hpair, calActive, h]
  rfl

theorem exec_calLoad {i : Byte} {lo hi : Half} (hn : sensorOk i = true)
    (hpair : (rawOk s.cfg lo && rawOk s.cfg hi) = true) (h : s.regs.calActive = false) :
    exec (.calLoad i lo hi) s =
      .next (answer .ok 0 (setSensor s i.toNat (loadSensor lo hi (sensor s i.toNat)))) := by
  rw [exec, execCalLoad, hn, hpair, calActive, h]
  rfl

end

theorem rawOk_pair {cfg : Config} {lo hi : Half} (hlo : lo.toNat < 2 ^ cfg.rawW) (hhi : hi.toNat < 2 ^ cfg.rawW) :
    (rawOk cfg lo && rawOk cfg hi) = true := by
  rw [rawOk_iff.2 hlo, rawOk_iff.2 hhi]
  rfl

/-! ### The commands one by one -/

/-- Settles O43: the bitmask is the one that `classify` packs, and the invariant gives every sensor a bit of it. -/
theorem clsClassifyResult : Obligations.ClsClassifyResult := by
  refine ⟨mbzRejected_of_opcode _, fun s h => exec_clsClassify_in_session h, fun s hs h => ?_⟩
  refine ⟨_, exec_clsClassify h, fun i x hx => ?_⟩
  rw [classify_getLsbD_of_getElem? (sensor_index_lt hs hx) hx]
  exact dark_iff

/-- Settles O42, one check of R111 after the other. -/
theorem clsSampleResult : Obligations.ClsSampleResult := by
  refine ⟨mbzRejected_of_opcode _, fun s i raw hi => ?_, fun s i raw hi hraw => ?_, fun s i raw x hi hraw hx => ?_⟩
  · rw [exec, execClsSample, sensorOk_eq_false hi]
    rfl
  · rw [exec, execClsSample, sensorOk_iff.2 hi, rawOk_eq_false hraw]
    rfl
  · rw [exec_clsSample hi hraw, sensor_of_getElem? hx]
    rfl

/-- Settles O46: every sensor is given the two starting values of R113, and the old threshold stays. -/
theorem calBeginResult : Obligations.CalBeginResult := by
  refine ⟨mbzRejected_of_opcode _, fun s h => exec_calBegin_in_session h, fun s hcfg h => ?_⟩
  refine ⟨_, exec_calBegin h, List.length_map _, fun i x x' hx hx' => ?_⟩
  obtain rfl := eq_of_getElem?_map hx hx'
  exact ⟨beginSensor_cmin_toNat hcfg x, rfl, rfl, rfl⟩

/-- Settles O47: the comparisons of R114 are the minimum and the maximum. -/
theorem calUpdateResult : Obligations.CalUpdateResult := by
  refine ⟨mbzRejected_of_opcode _, fun s h => exec_calUpdate_outside_session h, fun s h => ?_⟩
  refine ⟨_, exec_calUpdate h, List.length_map _, fun i x x' hx hx' => ?_⟩
  obtain rfl := eq_of_getElem?_map hx hx'
  exact ⟨updateSensor_cmin_toNat x, updateSensor_cmax_toNat x, rfl, rfl⟩

/-- Settles O48: the average of R117 is exact in 16 bits. -/
theorem calEndResult : Obligations.CalEndResult := by
  refine ⟨mbzRejected_of_opcode _, fun s h => exec_calEnd_outside_session h, fun s h => ?_⟩
  refine ⟨_, exec_calEnd h, List.length_map _, fun i x x' hx hx' => ?_⟩
  obtain rfl := eq_of_getElem?_map hx hx'
  exact ⟨endSensor_thr_toNat x, rfl, rfl, rfl⟩

/-- Settles O49, one check of R116 after the other; the average does not ask which value is the lesser. -/
theorem calLoadResult : Obligations.CalLoadResult := by
  refine ⟨mbzRejected_of_opcode _, fun s i lo hi hn => ?_, fun s i lo hi hn hpair => ?_,
    fun s i lo hi hn hlo hhi h => exec_calLoad_in_session (sensorOk_iff.2 hn) (rawOk_pair hlo hhi) h,
    fun s i lo hi x hn hlo hhi h hx => ⟨average lo hi, average_toNat lo hi, ?_⟩⟩
  · rw [exec, execCalLoad, sensorOk_eq_false hn]
    rfl
  · have hbad : (rawOk s.cfg lo && rawOk s.cfg hi) = false :=
      Bool.and_eq_false_iff.2 (hpair.imp rawOk_eq_false rawOk_eq_false)
    rw [exec, execCalLoad, sensorOk_iff.2 hn, hbad]
    rfl
  · rw [exec_calLoad (sensorOk_iff.2 hn) (rawOk_pair hlo hhi) h, sensor_of_getElem? hx]
    rfl

/-! ### The bitmask against the thresholds (R118, R119) -/

theorem execAll_cons {i : Instr} {s t : State} (h : exec i s = .next t) (l : List Instr) :
    execAll (i :: l) s = execAll l t := by
  rw [execAll, h]

/-- Settles O45: with the thresholds 0 no sensor is dark. -/
theorem degenerateCalibrationGivesZero : Obligations.DegenerateCalibrationGivesZero := by
  intro s hcal hthr
  rw [exec_clsClassify hcal, classify_of_thr_zero hthr]
  rfl

/-- Classifying after a sample is classifying the sensors with one reading replaced. -/
theorem execAll_clsSample_clsClassify {s : State} {i : Byte} {raw : Half} {x : Sensor} (hcal : s.regs.calActive = false)
    (hi : i.toNat < 8) (hraw : raw.toNat < 2 ^ s.cfg.rawW) (hx : s.regs.sensors[i.toNat]? = some x) :
    ∃ u, execAll [.clsSample i raw, .clsClassify] s = .next u ∧
      u.regs.sense = classify (s.regs.sensors.set i.toNat { x with raw := raw }) := by
  obtain ⟨t, ht, -, hact, hsensors⟩ := exec_clsSample_sensors hi hraw hx
  have hclassify := exec_clsClassify (hact.trans hcal)
  refine ⟨_, (execAll_cons ht _).trans (execAll_cons hclassify _), ?_⟩
  rw [← hsensors]
  rfl

/-- Settles O44: the sample replaces one sensor, whose bit is its own, and every other bit is another sensor's. -/
theorem readingAcrossThresholdFlipsOneBit : Obligations.ReadingAcrossThresholdFlipsOneBit := by
  intro s i raw x hs hcal hi hx hraw hbelow hnot
  obtain ⟨u, hu, hsense⟩ := execAll_clsSample_clsClassify hcal hi hraw hx
  refine ⟨_, u, exec_clsClassify hcal, hu, ?_, ?_, fun j hj => ?_⟩
  · exact (classify_getLsbD_of_getElem? hi hx).trans (dark_iff.2 hbelow)
  · rw [hsense, classify_getLsbD_of_getElem? hi (getElem?_set_of_getElem? hx _)]
    exact decide_eq_false (Nat.not_lt.2 hnot)
  · rw [hsense]
    exact classify_set_getLsbD_ne _ _ hj

/-! ### What a session learns (R113 to R117) -/

/-- In a block with the configuration `cfg`, `CAL_ACTIVE` is `active` and sensor `i` holds `x`. -/
def Calibrating (cfg : Config) (i : Nat) (active : Bool) (x : Sensor) (s : State) : Prop :=
  s.cfg = cfg ∧ s.regs.calActive = active ∧ s.regs.sensors[i]? = some x

section
variable {cfg : Config} {i : Nat} {active : Bool} {x : Sensor} {s : State}

theorem mapSensors_getElem? (h : s.regs.sensors[i]? = some x) (f : Sensor → Sensor) :
    (mapSensors s f).regs.sensors[i]? = some (f x) := by
  rw [mapSensors_sensors, List.getElem?_map, h]
  rfl

theorem Calibrating.calBegin (h : Calibrating cfg i false x s) :
    ∃ t, exec .calBegin s = .next t ∧ Calibrating cfg i true (beginSensor cfg x) t := by
  obtain ⟨rfl, hcal, hx⟩ := h
  exact ⟨_, exec_calBegin hcal, rfl, rfl, mapSensors_getElem? hx _⟩

theorem Calibrating.clsSample {n : Byte} (h : Calibrating cfg n.toNat active x s) (hn : n.toNat < 8) {raw : Half}
    (hraw : raw.toNat < 2 ^ cfg.rawW) :
    ∃ t, exec (.clsSample n raw) s = .next t ∧ Calibrating cfg n.toNat active { x with raw := raw } t := by
  obtain ⟨rfl, hcal, hx⟩ := h
  obtain ⟨t, ht, hcfg, hact, hsensors⟩ := exec_clsSample_sensors hn hraw hx
  refine ⟨t, ht, hcfg, hact.trans hcal, ?_⟩
  rw [hsensors, getElem?_set_of_getElem? hx]

theorem Calibrating.calUpdate (h : Calibrating cfg i true x s) :
    ∃ t, exec .calUpdate s = .next t ∧ Calibrating cfg i true (updateSensor x) t := by
  obtain ⟨rfl, hcal, hx⟩ := h
  exact ⟨_, exec_calUpdate hcal, rfl, hcal, mapSensors_getElem? hx _⟩

theorem Calibrating.calEnd (h : Calibrating cfg i true x s) :
    ∃ t, exec .calEnd s = .next t ∧ Calibrating cfg i false (endSensor x) t := by
  obtain ⟨rfl, hcal, hx⟩ := h
  exact ⟨_, exec_calEnd hcal, rfl, rfl, mapSensors_getElem? hx _⟩

end

/-- A sensor at the end of a session in which the readings `a` and `b` were folded in. -/
def learned (cfg : Config) (a b : Half) (x : Sensor) : Sensor :=
  endSensor (updateSensor { updateSensor { beginSensor cfg x with raw := a } with raw := b })

/-- The starting values of R113 are neutral, so the extremes are those of the two readings. -/
theorem learned_range {cfg : Config} (hcfg : cfg.wf = true) {a b : Half} (ha : a.toNat < 2 ^ cfg.rawW) (x : Sensor) :
    (learned cfg a b x).cmin.toNat = min a.toNat b.toNat ∧ (learned cfg a b x).cmax.toNat = max a.toNat b.toNat := by
  have hmin := beginSensor_cmin_toNat hcfg x
  have hmax : (beginSensor cfg x).cmax.toNat = 0 := rfl
  simp only [learned, endSensor_cmin, endSensor_cmax, updateSensor_cmin_toNat, updateSensor_cmax_toNat]
  omega

theorem learned_thr {cfg : Config} (hcfg : cfg.wf = true) {a b : Half} (ha : a.toNat < 2 ^ cfg.rawW) (x : Sensor) :
    (learned cfg a b x).thr.toNat = (a.toNat + b.toNat) / 2 := by
  obtain ⟨hmin, hmax⟩ := learned_range hcfg (b := b) ha x
  have hthr : (learned cfg a b x).thr.toNat =
      ((learned cfg a b x).cmin.toNat + (learned cfg a b x).cmax.toNat) / 2 := endSensor_thr_toNat _
  rw [hthr, hmin, hmax, min_add_max]

/-- Settles O50: the sensor is followed through the six commands of the session. -/
theorem calibrationLearnsTheRange : Obligations.CalibrationLearnsTheRange := by
  intro s i a b hs hcal hi ha hb
  obtain ⟨hx, -⟩ := sensor_of_inv hs hi
  have h₀ : Calibrating s.cfg i.toNat false (sensor s i.toNat) s := ⟨rfl, hcal, hx⟩
  obtain ⟨s₁, e₁, h₁⟩ := h₀.calBegin
  obtain ⟨s₂, e₂, h₂⟩ := h₁.clsSample hi ha
  obtain ⟨s₃, e₃, h₃⟩ := h₂.calUpdate
  obtain ⟨s₄, e₄, h₄⟩ := h₃.clsSample hi hb
  obtain ⟨s₅, e₅, h₅⟩ := h₄.calUpdate
  obtain ⟨t, e₆, -, hend, ht⟩ := h₅.calEnd
  obtain ⟨hmin, hmax⟩ := learned_range hs.1 (b := b) ha (sensor s i.toNat)
  refine ⟨t, learned s.cfg a b (sensor s i.toNat), ?_, ht, rfl, hmin, hmax, learned_thr hs.1 ha _, hend⟩
  rw [execAll_cons e₁, execAll_cons e₂, execAll_cons e₃, execAll_cons e₄, execAll_cons e₅, execAll_cons e₆, execAll]

/-! ### What a session excludes (R121) -/

/-- Two operations that complete and answer with the same status. -/
def SameStatus (x x' : Result) : Prop :=
  ∃ t t' p p', x = .next t ∧ x' = .next t' ∧ t.resp = some p ∧ t'.resp = some p' ∧ p.status = p'.status

theorem reject_sameStatus (st : Status) (s s' : State) : SameStatus (reject st s) (reject st s') :=
  ⟨_, _, _, _, rfl, rfl, rfl, rfl, rfl⟩

theorem respond_sameStatus (v v' : Word) (s s' : State) : SameStatus (respond v s) (respond v' s') :=
  ⟨_, _, _, _, rfl, rfl, rfl, rfl, rfl⟩

/-- Two operations that make the same check. -/
theorem ite_sameStatus {x x' y y' : Result} {b : Bool} (hx : SameStatus x x') (hy : SameStatus y y') :
    SameStatus (if b then x else y) (if b then x' else y') := by
  cases b
  · exact hy
  · exact hx

/-- The commands that a session does not concern. -/
def IgnoresSession (i : Instr) : Prop :=
  (∃ n raw, i = .clsSample n raw) ∨ (∃ m, i = .senseLd m) ∨ (∃ a, i = .rd a) ∨ i = .nop ∨
    (∃ k p q r, i = .pidInit k p q r) ∨ (∃ k sp pv, i = .pidStep k sp pv) ∨ (∃ k, i = .pidRsti k)

/-- None of the checks of these commands reads `CAL_ACTIVE`; the value that `RD` answers may (R35). -/
theorem exec_setCalActive_sameStatus {i : Instr} (h : IgnoresSession i) (s : State) (b : Bool) :
    SameStatus (exec i s) (exec i (setCalActive s b)) := by
  have hreject (st : Status) := reject_sameStatus st s (setCalActive s b)
  rcases h with ⟨n, raw, rfl⟩ | ⟨m, rfl⟩ | ⟨a, rfl⟩ | rfl | ⟨k, p, q, r, rfl⟩ | ⟨k, sp, pv, rfl⟩ | ⟨k, rfl⟩
  · exact ite_sameStatus (hreject _) (ite_sameStatus (hreject _) (respond_sameStatus ..))
  · exact respond_sameStatus ..
  · cases ht : readTarget s.cfg a with
    | none =>
      rw [exec_rd_of_unmapped ht, exec_rd_of_unmapped (s := setCalActive s b) ht]
      exact hreject _
    | some r =>
      rw [exec_rd_of_mapped ht, exec_rd_of_mapped (s := setCalActive s b) ht]
      exact respond_sameStatus ..
  · exact respond_sameStatus ..
  · exact ite_sameStatus (hreject _) (ite_sameStatus (hreject _) (respond_sameStatus ..))
  · exact ite_sameStatus (hreject _) (ite_sameStatus (hreject _) (respond_sameStatus ..))
  · exact ite_sameStatus (hreject _) (ite_sameStatus (hreject _) (respond_sameStatus ..))

/-- Settles O51: the commands that a session excludes and those that need one by their own rules, the others by the
checks that they make. -/
theorem sessionExclusivity : Obligations.SessionExclusivity := by
  refine ⟨?_, ?_, fun s b i hi => exec_setCalActive_sameStatus hi s b, ?_⟩
  · rintro s i hcal hwf (rfl | rfl | ⟨n, lo, hi, rfl⟩ | rfl)
    · exact exec_clsClassify_in_session hcal
    · exact execFsmCycle_in_session hcal
    · obtain ⟨hn, hpair⟩ := Bool.and_eq_true_iff.1 hwf
      exact exec_calLoad_in_session hn hpair hcal
    · exact exec_calBegin_in_session hcal
  · rintro s i hcal (rfl | rfl)
    · exact exec_calUpdate_outside_session hcal
    · exact exec_calEnd_outside_session hcal
  · rintro s i (rfl | rfl | rfl)
    · exact ⟨_, rfl⟩
    · exact ⟨_, rfl⟩
    · exact ⟨_, rfl⟩

end Sys2Proof.Proofs
end

section
/-! PROOFS. The PID controller (`spec/41_pid.md`): what each of its commands answers and leaves (R132, R133, R141), the
ranges of the terms of a step (R145), and the source's three properties of the output and of the sum (R142 to R144). -/

namespace Sys2Proof.Proofs

open Sys2Proof.Machine Sys2Proof.Laws

/-! ### How each command of the PID ends (R90, R132, R133, R141) -/

theorem instanceOk_eq_false {cfg : Config} {k : Byte} (h : cfg.nPid ≤ k.toNat) : instanceOk cfg k = false :=
  decide_eq_false (Nat.not_lt.2 h)

theorem gainOk_eq_false {g : Half} (h : g.toInt < 0) : gainOk g = false := decide_eq_false (Int.not_le.2 h)

section
variable {s : State} {k : Byte} {c : PidCtx}

theorem exec_pidInit {p i d : Half} (hk : k.toNat < s.cfg.nPid) (hp : 0 ≤ p.toInt) (hi : 0 ≤ i.toInt)
    (hd : 0 ≤ d.toInt) :
    exec (.pidInit k p i d) s = .next (answer .ok 0 (setPid s k.toNat (pidInitCtx s.cfg p i d))) := by
  rw [exec, execPidInit, instanceOk_iff.2 hk, gainOk_iff.2 hp, gainOk_iff.2 hi, gainOk_iff.2 hd]
  rfl

theorem exec_pidStep_not_valid (hk : k.toNat < s.cfg.nPid) (hc : s.regs.pid[k.toNat]? = some c) (hv : c.valid = false)
    (sp pv : Half) : exec (.pidStep k sp pv) s = .next (answer .notReady 0 s) := by
  rw [exec, execPidStep, instanceOk_iff.2 hk, indexOf, (valid_of_getElem? hc).trans hv]
  rfl

theorem exec_pidStep (hk : k.toNat < s.cfg.nPid) (hc : s.regs.pid[k.toNat]? = some c) (hv : c.valid = true)
    (sp pv : Half) : exec (.pidStep k sp pv) s =
      .next (answer .ok (BitVec.ofInt 32 (pidOut s.cfg c sp pv)) (setPid s k.toNat (pidStepCtx s.cfg c sp pv))) := by
  rw [exec, execPidStep, instanceOk_iff.2 hk, indexOf, (valid_of_getElem? hc).trans hv, pidCtx_of_getElem? hc]
  rfl

theorem exec_pidRsti_not_valid (hk : k.toNat < s.cfg.nPid) (hc : s.regs.pid[k.toNat]? = some c)
    (hv : c.valid = false) : exec (.pidRsti k) s = .next (answer .notReady 0 s) := by
  rw [exec, execPidRsti, instanceOk_iff.2 hk, indexOf, (valid_of_getElem? hc).trans hv]
  rfl

theorem exec_pidRsti (hk : k.toNat < s.cfg.nPid) (hc : s.regs.pid[k.toNat]? = some c) (hv : c.valid = true) :
    exec (.pidRsti k) s = .next (answer .ok 0 (setPid s k.toNat { c with sumError := 0 })) := by
  rw [exec, execPidRsti, instanceOk_iff.2 hk, indexOf, (valid_of_getElem? hc).trans hv, pidCtx_of_getElem? hc]
  rfl

end

/-- Settles O24, one check of R132 after the other; the two quotients fit the registers that hold them. -/
theorem pidInitResult : Obligations.PidInitResult := by
  refine ⟨fun s k p i d hk => ?_, fun s k p i d hk hg => ?_, fun s k p i d hcfg hk hp hi hd => ?_⟩
  · rw [exec, execPidInit, instanceOk_eq_false hk]
    rfl
  · have hbad : (gainOk p && gainOk i && gainOk d) = false := by
      rcases hg with h | h | h <;> simp [gainOk_eq_false h]
    rw [exec, execPidInit, instanceOk_iff.2 hk, hbad]
    rfl
  · exact ⟨_, exec_pidInit hk hp hi hd, rfl, rfl, rfl, pidInitCtx_maxError _ i d hp,
      pidInitCtx_maxSumError hcfg p d hi, rfl, rfl, rfl, rfl⟩

/-- Settles O26, one check of R141 after the other. -/
theorem pidRstiResult : Obligations.PidRstiResult := by
  refine ⟨mbzRejected_of_opcode _, fun s k hk => ?_, fun s k c hk hc hv => exec_pidRsti_not_valid hk hc hv,
    fun s k c hk hc hv => exec_pidRsti hk hc hv⟩
  rw [exec, execPidRsti, instanceOk_eq_false hk]
  rfl

/-! ### The terms of a step, case by case (R135 to R139) -/

section
variable {cfg : Config} {c : PidCtx} {err : Int}

theorem pidP_of_gt (h : c.maxError.toInt < err) : pidP c err = 32767 := if_pos h

theorem pidP_of_lt (hmax : 0 ≤ c.maxError.toInt) (h : err < -c.maxError.toInt) : pidP c err = -32767 := by
  rw [pidP, if_neg (by omega), if_pos h]

theorem pidP_of_abs_le (h : |err| ≤ c.maxError.toInt) : pidP c err = c.pFactor.toInt * err := by
  obtain ⟨hlo, hhi⟩ := abs_le.1 h
  rw [pidP, if_neg (by omega), if_neg (by omega)]

theorem pidI_of_gt (h : c.maxSumError.toInt < c.sumError.toInt + err) : pidI cfg c err = cfg.maxITerm := if_pos h

theorem pidI_of_lt (hmax : 0 ≤ c.maxSumError.toInt) (h : c.sumError.toInt + err < -c.maxSumError.toInt) :
    pidI cfg c err = -cfg.maxITerm := by
  rw [pidI, if_neg (by omega), if_pos h]

theorem pidI_of_abs_le (h : |c.sumError.toInt + err| ≤ c.maxSumError.toInt) :
    pidI cfg c err = c.iFactor.toInt * (c.sumError.toInt + err) := by
  obtain ⟨hlo, hhi⟩ := abs_le.1 h
  rw [pidI, if_neg (by omega), if_neg (by omega)]

/-- The two clamp branches of the sum are the two bounds of an interval (R136). -/
theorem pidSum_eq (hmax : 0 ≤ c.maxSumError.toInt) :
    pidSum c err = max (-c.maxSumError.toInt) (min c.maxSumError.toInt (c.sumError.toInt + err)) := by
  simp only [pidSum]
  split <;> [skip; split] <;> omega

end

theorem pidOut_eq (cfg : Config) (c : PidCtx) (sp pv : Half) :
    pidOut cfg c sp pv = max (-32767) (min 32767 (Int.tdiv
      (pidP c (pidError sp pv) + pidI cfg c (pidError sp pv) + pidD c pv) cfg.scalingFactor)) :=
  clamp_eq (by decide)

/-! ### A step under the invariant (R25, R133, R140) -/

section
variable {s : State} {k : Byte} {c : PidCtx}

theorem bounded_of_inv (hs : State.Inv s) (hc : s.regs.pid[k.toNat]? = some c) (hv : c.valid = true) :
    PidCtx.bounded s.cfg c :=
  (pid_of_inv hs hc).1.2 hv

/-- A step of a valid context answers `OK` with the output (R133). -/
theorem exec_pidStep_answers (hs : State.Inv s) (hc : s.regs.pid[k.toNat]? = some c) (hv : c.valid = true)
    (sp pv : Half) : ∃ t v, exec (.pidStep k sp pv) s = .next t ∧ t.resp = some { status := .ok, value := v } ∧
      v.toInt = pidOut s.cfg c sp pv := by
  obtain ⟨-, hk⟩ := pid_of_inv hs hc
  exact ⟨_, _, exec_pidStep hk hc hv sp pv, rfl, pidOut_response s.cfg c sp pv⟩

/-- It keeps the invariant and leaves the context that R140 says. -/
theorem exec_pidStep_leaves (hs : State.Inv s) (hc : s.regs.pid[k.toNat]? = some c) (hv : c.valid = true)
    (sp pv : Half) : ∃ t, exec (.pidStep k sp pv) s = .next t ∧ State.Inv t ∧
      t.regs.pid[k.toNat]? = some (pidStepCtx s.cfg c sp pv) := by
  obtain ⟨-, hk⟩ := pid_of_inv hs hc
  have ht := exec_pidStep hk hc hv sp pv
  refine ⟨_, ht, exec_keeps_inv hs ht, ?_⟩
  exact (setPid_getElem?_self s k.toNat _).trans (congrArg (Option.map _) hc)

end

/-- Settles O25: the terms of the model are those of R133, and the registers hold the new sum and the output exactly. -/
theorem pidStepResult : Obligations.PidStepResult := by
  refine ⟨mbzRejected_of_opcode _, fun s k sp pv hk => ?_,
    fun s k sp pv c hk hc hv => exec_pidStep_not_valid hk hc hv sp pv, ?_⟩
  · rw [exec, execPidStep, instanceOk_eq_false hk]
    rfl
  · intro s k sp pv c hs hc hv err p tmp i newsum d out
    obtain ⟨-, hk⟩ := pid_of_inv hs hc
    obtain ⟨-, hmax⟩ := bounded_bounds_nonneg (bounded_of_inv hs hc hv)
    have hout : pidOut s.cfg c sp pv = out := pidOut_eq s.cfg c sp pv
    refine ⟨_, _, exec_pidStep hk hc hv sp pv, ?_, pidStepCtx_sumError hmax s.cfg sp pv, rfl, ?_, rfl, rfl, rfl, rfl,
      rfl, hv⟩
    · rw [pidOut_response, hout]
    · rw [pidStepCtx_out, hout]

/-! ### The ranges of the terms (R134 to R138, R145) -/

/-- The difference of two 16-bit registers, exact (R134, R137). -/
theorem abs_toInt_sub_le (v w : Half) : |v.toInt - w.toInt| ≤ 65535 := by
  have hv := toInt_bounds_16 v
  have hw := toInt_bounds_16 w
  exact abs_le.2 (by omega)

/-- What the bounds of R132 are for: a gain times a value within `tdiv(a, gain + 1)` stays within `a`. -/
theorem abs_gain_mul_le {a g x : Int} (ha : 0 ≤ a) (hg : 0 ≤ g) (hx : |x| ≤ tdiv a (g + 1)) : |g * x| ≤ a := by
  obtain ⟨hnonneg, -, hmul⟩ := tdiv_bounds ha (show 1 ≤ g + 1 by omega)
  calc |g * x| = g * |x| := by rw [abs_mul, abs_of_nonneg hg]
    _ ≤ g * tdiv a (g + 1) := Int.mul_le_mul_of_nonneg_left hx hg
    _ ≤ tdiv a (g + 1) * (g + 1) := by linarith
    _ ≤ a := hmul

section
variable {cfg : Config} {c : PidCtx} (hb : PidCtx.bounded cfg c)
include hb

theorem pidP_abs_le (err : Int) : |pidP c err| ≤ 32767 := by
  obtain ⟨hmax, -⟩ := bounded_bounds_nonneg hb
  obtain ⟨hp, -, -, herr, -⟩ := hb
  rcases lt_or_ge c.maxError.toInt err with hgt | hle
  · rw [pidP_of_gt hgt]
    decide
  · rcases lt_or_ge err (-c.maxError.toInt) with hlt | hge
    · rw [pidP_of_lt hmax hlt]
      decide
    · have hin := abs_le.2 ⟨hge, hle⟩
      rw [pidP_of_abs_le hin]
      exact abs_gain_mul_le (by decide) hp (herr ▸ hin)

theorem pidSum_abs_le (err : Int) : |pidSum c err| ≤ c.maxSumError.toInt :=
  abs_le.2 (pidSum_bounds (bounded_bounds_nonneg hb).2 err)

theorem pidI_abs_le (err : Int) : |pidI cfg c err| ≤ cfg.maxITerm := by
  obtain ⟨-, hmax⟩ := bounded_bounds_nonneg hb
  obtain ⟨-, hi, -, -, hsum, -⟩ := hb
  rcases lt_or_ge c.maxSumError.toInt (c.sumError.toInt + err) with hgt | hle
  · rw [pidI_of_gt hgt, Nat.abs_cast]
  · rcases lt_or_ge (c.sumError.toInt + err) (-c.maxSumError.toInt) with hlt | hge
    · rw [pidI_of_lt hmax hlt, abs_neg, Nat.abs_cast]
    · have hin := abs_le.2 ⟨hge, hle⟩
      rw [pidI_of_abs_le hin]
      exact abs_gain_mul_le (Int.natCast_nonneg _) hi (hsum ▸ hin)

theorem pidD_abs_le (pv : Half) : |pidD c pv| ≤ 2147385345 := by
  obtain ⟨-, -, hd, -⟩ := hb
  obtain ⟨-, hle⟩ := toInt_bounds_16 c.dFactor
  calc |pidD c pv| = c.dFactor.toInt * |c.lastPv.toInt - pv.toInt| := by
        rw [pidD, signedOf, abs_mul, abs_of_nonneg hd]
    _ ≤ 32767 * 65535 := mul_le_mul hle (abs_toInt_sub_le _ _) (abs_nonneg _) (by decide)
    _ = 2147385345 := by decide

/-- The bound of the sum leaves room for one more error in 32 bits (R7, R136). -/
theorem tentativeSum_abs_le (hcfg : cfg.wf = true) (sp pv : Half) :
    |c.sumError.toInt + pidError sp pv| ≤ 2147483647 := by
  obtain ⟨-, ⟨-, hterm⟩, -⟩ := wf_ranges hcfg
  obtain ⟨-, hi, -, -, hsum, hlo, hhi, -⟩ := hb
  obtain ⟨-, hmax, -⟩ := tdiv_bounds (a := cfg.maxITerm) (b := c.iFactor.toInt + 1) (by omega) (by omega)
  obtain ⟨elo, ehi⟩ := abs_le.1 (abs_toInt_sub_le sp pv)
  rw [pidError_eq]
  exact abs_le.2 (by omega)

end

/-- Settles O27: each term within its own bound, and the accumulator by the triangle inequality. -/
theorem pidTermsWithinBounds : Obligations.PidTermsWithinBounds := by
  intro cfg c sp pv hcfg hb
  have hP := pidP_abs_le hb (pidError sp pv)
  have hI := pidI_abs_le hb (pidError sp pv)
  have hD := pidD_abs_le hb pv
  refine ⟨abs_toInt_sub_le sp pv, hP, tentativeSum_abs_le hb hcfg sp pv, pidSum_abs_le hb _, hI, hD, ?_⟩
  exact (abs_add_three _ _ _).trans (by omega)

/-! ### The output (R142, R143) -/

/-- Settles O28: the response is the output, which the last clamp holds in its bounds. -/
theorem pidOutputWithinInt16 : Obligations.PidOutputWithinInt16 := by
  intro s k sp pv c hs hc hv
  obtain ⟨t, v, ht, hresp, hval⟩ := exec_pidStep_answers hs hc hv sp pv
  exact ⟨t, v, ht, hresp, hval ▸ pidOut_bounds s.cfg c sp pv⟩

/-- Scaling does not enlarge a value (R138, R147). -/
theorem abs_tdiv_le (a b : Int) : |Int.tdiv a b| ≤ |a| := by
  rw [Int.abs_eq_natAbs, Int.abs_eq_natAbs, Int.natAbs_tdiv]
  exact_mod_cast Nat.div_le_self _ _

/-- With the other two gains 0 and no clamp of the sum, the output is the proportional term, scaled (R143). -/
theorem pidOut_eq_scaled_pidP {cfg : Config} {c : PidCtx} {sp pv : Half} (hb : PidCtx.bounded cfg c)
    (hi : c.iFactor = 0) (hd : c.dFactor = 0) (hsum : |c.sumError.toInt + pidError sp pv| ≤ c.maxSumError.toInt) :
    pidOut cfg c sp pv = Int.tdiv (pidP c (pidError sp pv)) cfg.scalingFactor := by
  have hI : pidI cfg c (pidError sp pv) = 0 := by
    simp [pidI_of_abs_le hsum, hi]
  have hD : pidD c pv = 0 := by
    simp [pidD, hd]
  obtain ⟨hlo, hhi⟩ := abs_le.1 ((abs_tdiv_le (pidP c (pidError sp pv)) cfg.scalingFactor).trans (pidP_abs_le hb _))
  rw [pidOut_eq, hI, hD, Int.add_zero, Int.add_zero, min_eq_right hhi, max_eq_right hlo]

/-- Settles O29: the output is the scaled proportional term, which is at its clamp on either side. -/
theorem pidProportionalClampShows : Obligations.PidProportionalClampShows := by
  intro s k sp pv c hs hc hv hi hd hsum
  have hb := bounded_of_inv hs hc hv
  obtain ⟨hmax, -⟩ := bounded_bounds_nonneg hb
  obtain ⟨t, v, ht, hresp, hval⟩ := exec_pidStep_answers hs hc hv sp pv
  rw [pidOut_eq_scaled_pidP hb hi hd hsum, pidError_eq] at hval
  refine ⟨fun hgt => ⟨t, v, ht, hresp, ?_⟩, fun hlt => ⟨t, v, ht, hresp, ?_⟩⟩
  · rw [hval, pidP_of_gt hgt]
  · rw [hval, pidP_of_lt hmax hlt]

/-! ### The sum under a constant error (R144) -/

/-- One clamped step and then `n` unclamped ones, against the upper bound, are `n + 1` unclamped ones. -/
theorem min_windup_succ {m x e : Int} (he : 0 ≤ e) (hlo : -m ≤ x) (hhi : x ≤ m) (n : Nat) :
    min m (max (-m) (min m (x + e)) + n * e) = min m (x + (n + 1 : Nat) * e) := by
  have hn : 0 ≤ n * e := Int.mul_nonneg (Int.natCast_nonneg n) he
  rw [Nat.cast_succ, add_one_mul]
  omega

/-- The same against the lower bound. -/
theorem max_windup_succ {m x e : Int} (he : e ≤ 0) (hlo : -m ≤ x) (hhi : x ≤ m) (n : Nat) :
    max (-m) (max (-m) (min m (x + e)) + n * e) = max (-m) (x + (n + 1 : Nat) * e) := by
  have hn : n * e ≤ 0 := Int.mul_nonpos_of_nonneg_of_nonpos (Int.natCast_nonneg n) he
  rw [Nat.cast_succ, add_one_mul]
  omega

/-- Settles O30, by induction on the steps: the first clamps the sum to its interval, and the others start there. -/
theorem pidWindupReachesBoundAndHolds : Obligations.PidWindupReachesBoundAndHolds := by
  intro e l s k c hs hc hv hl
  induction l generalizing s c with
  | nil =>
    obtain ⟨-, -, -, -, -, hlo, hhi, -⟩ := bounded_of_inv hs hc hv
    exact ⟨s, c, rfl, hc, rfl, fun _ => by simp [hhi], fun _ => by simp [hlo]⟩
  | cons x xs ih =>
    obtain ⟨herr, hxs⟩ := List.forall_mem_cons.1 hl
    have hb := bounded_of_inv hs hc hv
    obtain ⟨-, hmax⟩ := bounded_bounds_nonneg hb
    obtain ⟨-, -, -, -, -, hlo, hhi, -⟩ := hb
    have hsum : (pidStepCtx s.cfg c x.1 x.2).sumError.toInt =
        max (-c.maxSumError.toInt) (min c.maxSumError.toInt (c.sumError.toInt + e)) := by
      rw [pidStepCtx_sumError hmax, pidSum_eq hmax, pidError_eq, herr]
    obtain ⟨u, hu, hinv, hcu⟩ := exec_pidStep_leaves hs hc hv x.1 x.2
    obtain ⟨t, c', ht, hct, hbound, hpos, hneg⟩ := ih u _ hinv hcu hv hxs
    refine ⟨t, c', (execAll_cons hu _).trans ht, hct, hbound, fun he => ?_, fun he => ?_⟩
    · exact (hpos he).trans (hsum ▸ min_windup_succ he hlo hhi xs.length)
    · exact (hneg he).trans (hsum ▸ max_windup_succ he hlo hhi xs.length)

end Sys2Proof.Proofs
end

section
/-! PROOFS. The motion state machine (`spec/42_fsm.md`): the selection of a rule as the first guard of one ordered list
(R166 to R173), what a cycle writes and answers (R174 to R176, R179), on what that depends (R162), and `SENSE.LD`
(R180). -/

namespace Sys2Proof.Proofs

open Sys2Proof.Machine Sys2Proof.Laws

/-! ### Which ROM is accepted (R164, R165) -/

/-- R165 (a) and (c). -/
theorem romRule_wf_iff (r : RomRule) :
    r.wf = true ↔ (∀ n, r.next = some n → n.toNat < 19) ∧ (r.rst = true → ∃ n, r.next = some n) := by
  simp only [RomRule.wf, RomRule.nextOk, RomRule.rstOk, Bool.and_eq_true, Option.all_eq_true, decide_eq_true_eq,
    Bool.or_eq_true, Bool.not_eq_true', Option.isSome_iff_exists]
  cases r.rst <;> simp

/-- R165 (b) and (d) beside what holds of every rule. -/
theorem tabEntry_wf_iff (x : TabEntry) :
    x.wf = true ↔ x.rule.wf = true ∧ (∃ d, x.rule.cmd = some d) ∧ x.pattern &&& ~~~x.mask = 0 := by
  simp only [TabEntry.wf, TabEntry.patternOk, Bool.and_eq_true, Option.isSome_iff_exists, beq_iff_eq, and_assoc]

/-- The rules of a state's configuration, wherever they stand in it, are well formed. -/
theorem stateCfg_wf_iff (c : StateCfg) : c.wf = true ↔
    (∀ r, (c.cross = some r ∨ c.lost = some r ∨ (∃ x ∈ c.thr, x.rule = r) ∨ (∃ x ∈ c.tab, x.rule = r)) →
      r.wf = true) ∧ (∀ x ∈ c.tab, (∃ d, x.rule.cmd = some d) ∧ x.pattern &&& ~~~x.mask = 0) := by
  simp only [StateCfg.wf, Bool.and_eq_true, Option.all_eq_true, List.all_eq_true, ThrEntry.wf, tabEntry_wf_iff]
  constructor
  · rintro ⟨⟨⟨hcross, hlost⟩, hthr⟩, htab⟩
    refine ⟨?_, fun x hx => (htab x hx).2⟩
    rintro r (h | h | ⟨x, hx, rfl⟩ | ⟨x, hx, rfl⟩)
    · exact hcross r h
    · exact hlost r h
    · exact hthr x hx
    · exact (htab x hx).1
  · rintro ⟨hrule, htab⟩
    exact ⟨⟨⟨fun r h => hrule r (.inl h), fun r h => hrule r (.inr (.inl h))⟩,
      fun x hx => hrule _ (.inr (.inr (.inl ⟨x, hx, rfl⟩)))⟩,
      fun x hx => ⟨hrule _ (.inr (.inr (.inr ⟨x, hx, rfl⟩))), htab x hx⟩⟩

/-- Settles O17: the checks of the rules, of the table entries and of the four parts of a configuration. -/
theorem romAcceptedAsSpecified : Obligations.RomAcceptedAsSpecified := by
  intro rom
  simp only [romWf, Bool.and_eq_true, beq_iff_eq, List.all_eq_true, stateCfg_wf_iff, romRule_wf_iff]

/-! ### The guards on the bitmask and the counters (R168, R169, R171) -/

/-- `Cross` is a run of dark sensors, for every band that fits the bitmask (R168). -/
theorem cross_iff {band : Nat} (hband : band ≤ 8) (m : Bitmask) :
    cross band m = true ↔ ∃ j, j + band ≤ 8 ∧ ∀ b, b < band → m.getLsbD (j + b) = true := by
  have hstart (j : Nat) : j < nSens + 1 - band ↔ j + band ≤ 8 := by
    show j < 8 + 1 - band ↔ _
    omega
  simp only [cross, List.any_eq_true, List.all_eq_true, List.mem_range, hstart]

/-- A run that is not empty has a dark sensor. -/
theorem not_cross_zero {band : Nat} (hband : 1 ≤ band) : ¬ cross band 0 = true := by
  intro h
  simp only [cross, List.any_eq_true, List.all_eq_true, List.mem_range] at h
  obtain ⟨j, -, hrun⟩ := h
  exact absurd (hrun 0 hband) (by simp)

theorem lost_iff (m : Bitmask) : lost m = true ↔ m = 0x00 := beq_iff_eq

/-- Settles O39: the run of R168; for a band of 6 the 256 bitmasks are gone through. -/
theorem crossAndLostConditions : Obligations.CrossAndLostConditions := by
  refine ⟨fun band m _ hband => cross_iff hband m, by decide +kernel, fun band _ hband => ?_, lost_iff,
    fun band m hband => ?_⟩
  · refine (cross_iff hband _).2 ⟨0, by omega, fun b hb => ?_⟩
    rw [show (0xFF : Bitmask) = BitVec.allOnes 8 from rfl, BitVec.getLsbD_allOnes]
    exact decide_eq_true (by omega)
  · rintro ⟨hcross, hlost⟩
    obtain rfl := (lost_iff m).1 hlost
    exact not_cross_zero hband hcross

/-- The guard of a `thr` entry as the statements write it is the model's (R171). -/
theorem overThreshold_eq_thrFires (t e : Word) : overThreshold t e = thrFires t e := by
  funext x
  rw [overThreshold, thrFires]
  cases x.counter <;> rfl

/-! ### The rule that is selected (R166) -/

/-- The first rule of a list of entries that each carry a guard. -/
theorem find?_guarded {α : Type} (l : List α) (guard : α → Bool) (rule : α → RomRule) :
    ((l.map fun x => (guard x, rule x)).find? fun g => g.1).map (fun g => g.2) = (l.find? guard).map rule := by
  rw [List.find?_map, Option.map_map]
  rfl

/-- A rule that a state may have, under its guard: the one entry of a list, or the rest of the search. -/
theorem ite_isSome_and (o u : Option RomRule) (guard : Bool) :
    (if o.isSome && guard then o else u) = (o.toList.find? fun _ => guard).or u := by
  cases o with
  | none => rfl
  | some r => cases guard <;> rfl

section
variable (band : Nat) (c : StateCfg) (m : Bitmask) (t e : Word)

theorem selectComposite_eq_or : selectComposite band c m =
    (c.cross.toList.find? fun _ => cross band m).or (c.lost.toList.find? fun _ => lost m) := by
  rw [selectComposite, ite_isSome_and, ite_isSome_and, Option.or_none]

theorem select_eq_or : select band c m t e =
    ((selectComposite band c m).or (selectThreshold c t e)).or (selectTable c m) := by
  rw [select]
  cases selectComposite band c m with
  | some r => rfl
  | none => cases selectThreshold c t e <;> rfl

theorem firstGuard_eq_or : firstGuard band c m t e =
    ((selectComposite band c m).or (selectThreshold c t e)).or (selectTable c m) := by
  have hcross := find?_guarded c.cross.toList (fun _ => cross band m) id
  have hlost := find?_guarded c.lost.toList (fun _ => lost m) id
  have hthr := find?_guarded c.thr (thrFires t e) (·.rule)
  have htab := find?_guarded c.tab (tabFires m) (·.rule)
  simp only [id_eq, Option.map_id_fun] at hcross hlost
  rw [firstGuard, guards, overThreshold_eq_thrFires, List.find?_append, List.find?_append, List.find?_append,
    Option.map_or, Option.map_or, Option.map_or, selectComposite_eq_or]
  exact congrArg₂ _ (congrArg₂ _ (congrArg₂ _ hcross hlost) hthr) htab

end

/-- Settles O36: both are the first of the composite, the threshold and the table rule that there is. -/
theorem selectTriesGuardsInOrder : Obligations.SelectTriesGuardsInOrder := by
  intro band c m t e
  rw [select_eq_or, firstGuard_eq_or]

theorem firstGuard_eq_none {band : Nat} {c : StateCfg} {m : Bitmask} {t e : Word}
    (h : ∀ g ∈ guards band c m t e, g.1 = false) : firstGuard band c m t e = none := by
  rw [firstGuard, List.find?_eq_none.2 fun g hg => by simp [h g hg]]
  rfl

/-! ### What a cycle leaves in the registers (R174 to R176) -/

/-- The rule that a cycle fires in a state with the configuration `c` (R166, R167). -/
abbrev fired (s : State) (c : StateCfg) : Option RomRule :=
  firstGuard s.cfg.crossBandMin c s.regs.sense s.regs.ticks s.regs.pulses

theorem cycle_regs_of_fired {s : State} {c : StateCfg} {u : Option RomRule} (h : fired s c = u) :
    (cycle c s).regs = applyRule s.cfg u s.regs := by
  rw [cycle_regs, cycleRegs, selectTriesGuardsInOrder]
  exact congrArg (applyRule s.cfg · s.regs) h

section
variable (cfg : Config) (x : RomRule) (r : Regs)

theorem applyRule_some_state : (applyRule cfg (some x) r).state = x.next.getD r.state := by simp [applyRule]

theorem applyRule_some_ticks : (applyRule cfg (some x) r).ticks = if x.rst then 0 else r.ticks := by simp [applyRule]

theorem applyRule_some_pulses : (applyRule cfg (some x) r).pulses = if x.rst then 0 else r.pulses := by
  simp [applyRule]

theorem applyRule_some_steer : (applyRule cfg (some x) r).steer = (applyCmd cfg x.cmd r).steer := by simp [applyRule]

theorem applyRule_some_speedL : (applyRule cfg (some x) r).speedL = (applyCmd cfg x.cmd r).speedL := by
  simp [applyRule]

theorem applyRule_some_speedR : (applyRule cfg (some x) r).speedR = (applyCmd cfg x.cmd r).speedR := by
  simp [applyRule]

end

/-- Registers that agree where no cycle writes differ in the others at most. -/
theorem regs_eq_update {r r' : Regs} (hpid : r'.pid = r.pid) (hsense : r'.sense = r.sense)
    (hsensors : r'.sensors = r.sensors) (hcal : r'.calActive = r.calActive) :
    r' =
      { r with
        state := r'.state
        steer := r'.steer
        speedL := r'.speedL
        speedR := r'.speedR
        ticks := r'.ticks
        pulses := r'.pulses } := by
  rw [← hpid, ← hsense, ← hsensors, ← hcal]

theorem cycle_of_fired_none {s : State} {c : StateCfg} (h : fired s c = none) : cycle c s = s :=
  congrArg (fun regs => { s with regs := regs }) (cycle_regs_of_fired h)

/-- Settles O34: outside a session the cycle is the actions of the fired rule, one register after the other. -/
theorem fsmCycleResult : Obligations.FsmCycleResult := by
  refine ⟨mbzRejected_of_opcode _, fun s h => execFsmCycle_in_session h, fun s c hcfg hcal hc => ?_⟩
  have hframe : (cycle c s).regs = _ := regs_eq_update (r := s.regs) (by simp) (by simp) (by simp) (by simp)
  refine ⟨_, execFsmCycle_of_stateCfg hcal hc, congrArg (fun regs => answer .ok _ { s with regs := regs }) hframe,
    cycle_regs_of_fired, fun r hr => ?_⟩
  simp only [cycle_regs_of_fired hr, applyRule_some_state, applyRule_some_ticks, applyRule_some_pulses,
    applyRule_some_steer, applyRule_some_speedL, applyRule_some_speedR, true_and]
  refine ⟨fun hcmd => ?_, fun x hcmd => ?_⟩
  · rw [hcmd]
    exact ⟨rfl, rfl, rfl⟩
  · rw [hcmd]
    exact ⟨clampSteer_toInt hcfg x.steer, clampSpeed_toInt hcfg x.spdL, clampSpeed_toInt hcfg x.spdR⟩

/-- Settles O37: with nothing fired the cycle is the identity, and a rule without a command has none to apply. -/
theorem cycleHoldsOnNoMatch : Obligations.CycleHoldsOnNoMatch := by
  refine ⟨fun s c hcal hc hguards => ?_, fun s c r hcal hc hr hcmd => ?_, fun s => ⟨_, rfl, rfl, rfl, rfl⟩⟩
  · have hcycle : cycle c s = s := cycle_of_fired_none (firstGuard_eq_none hguards)
    have h := execFsmCycle_of_stateCfg hcal hc
    rw [hcycle] at h
    exact h
  · refine ⟨_, execFsmCycle_of_stateCfg hcal hc, ?_⟩
    simp only [cycle_regs_of_fired hr, applyRule_some_steer, applyRule_some_speedL, applyRule_some_speedR, hcmd]
    exact ⟨rfl, rfl, rfl⟩

/-! ### On what a cycle depends (R162) -/

/-- The same command held in the three command registers. -/
def SameCommand (r r' : Regs) : Prop := r.steer = r'.steer ∧ r.speedL = r'.speedL ∧ r.speedR = r'.speedR

section
variable {r r' : Regs}

theorem applyCmd_sameCommand (cfg : Config) {d : Option RomCmd} (h : (∃ x, d = some x) ∨ SameCommand r r') :
    SameCommand (applyCmd cfg d r) (applyCmd cfg d r') := by
  cases d with
  | none => exact h.resolve_left (by simp)
  | some x => exact ⟨rfl, rfl, rfl⟩

/-- A rule with a command decides the command; any other leaves the one that is held. -/
theorem applyRule_sameCommand (cfg : Config) {u : Option RomRule}
    (h : (∃ x d, u = some x ∧ x.cmd = some d) ∨ SameCommand r r') :
    SameCommand (applyRule cfg u r) (applyRule cfg u r') := by
  cases u with
  | none => exact h.resolve_left (by simp)
  | some x =>
    have hcmd : (∃ d, x.cmd = some d) ∨ SameCommand r r' :=
      h.imp_left fun ⟨_, d, hx, hd⟩ => ⟨d, Option.some.inj hx ▸ hd⟩
    simpa only [SameCommand, applyRule_some_steer, applyRule_some_speedL, applyRule_some_speedR] using
      applyCmd_sameCommand cfg hcmd

/-- `STATE` and the counters after a rule are functions of the rule and of what they were. -/
theorem applyRule_sameControl (cfg : Config) (u : Option RomRule) (hstate : r.state = r'.state)
    (hticks : r.ticks = r'.ticks) (hpulses : r.pulses = r'.pulses) :
    (applyRule cfg u r).state = (applyRule cfg u r').state ∧ (applyRule cfg u r).ticks = (applyRule cfg u r').ticks ∧
      (applyRule cfg u r).pulses = (applyRule cfg u r').pulses := by
  cases u with
  | none => exact ⟨hstate, hticks, hpulses⟩
  | some x =>
    simp only [applyRule_some_state, applyRule_some_ticks, applyRule_some_pulses, hstate, hticks, hpulses, and_self]

end

theorem cmdOut_congr {s s' : State} (hstate : s.regs.state = s'.regs.state) (h : SameCommand s.regs s'.regs) :
    cmdOut s = cmdOut s' := by
  obtain ⟨hsteer, hl, hr⟩ := h
  rw [cmdOut, cmdOut, hstate, hsteer, hl, hr]

/-- Settles O38: the four inputs select the same rule, and the rule decides everything but a command that is held. -/
theorem transitionIsPure : Obligations.TransitionIsPure := by
  intro s s' hs _ hcfg hcal hcal' hstate hsense hticks hpulses
  obtain ⟨c, hc, -⟩ := stateCfg_of_inv hs
  have hc' : stateCfg s' = some c := by rw [← hc, stateCfg, stateCfg, hcfg, hstate]
  have hregs : (cycle c s).regs = applyRule s.cfg (fired s c) s.regs := cycle_regs_of_fired rfl
  have hregs' : (cycle c s').regs = applyRule s.cfg (fired s c) s'.regs := by
    rw [fired, hcfg, hsense, hticks, hpulses]
    exact cycle_regs_of_fired rfl
  have hcontrol := applyRule_sameControl s.cfg (fired s c) hstate hticks hpulses
  rw [← hregs, ← hregs'] at hcontrol
  obtain ⟨hstate₁, hticks₁, hpulses₁⟩ := hcontrol
  refine ⟨_, _, execFsmCycle_of_stateCfg hcal hc, execFsmCycle_of_stateCfg hcal' hc', hstate₁, hticks₁, hpulses₁,
    fun h => ?_⟩
  have hfires : (∃ r x, fired s c = some r ∧ r.cmd = some x) ∨ SameCommand s.regs s'.regs := by
    refine h.imp_left ?_
    rintro ⟨c₁, r, x, hc₁, hr, hx⟩
    obtain rfl : c₁ = c := Option.some.inj (hc₁.symm.trans hc)
    exact ⟨r, x, hr, hx⟩
  have hcommand := applyRule_sameCommand s.cfg hfires
  rw [← hregs, ← hregs'] at hcommand
  have hresp := congrArg (fun v => some (Response.mk .ok v)) (cmdOut_congr hstate₁ hcommand)
  obtain ⟨hsteer, hl, hr⟩ := hcommand
  exact ⟨hsteer, hl, hr, hresp⟩

/-! ### The counters between two resets of them (R171, R235) -/

section
variable {s t : State} {i : Instr}

/-- A cycle that does not clear the counters leaves them. -/
theorem exec_fsmCycle_keeps_counters (ht : exec .fsmCycle s = .next t) (hno : ¬ clearsCounters .fsmCycle s) :
    t.regs.ticks = s.regs.ticks ∧ t.regs.pulses = s.regs.pulses := by
  rcases execFsmCycle_cases s with ⟨-, e⟩ | ⟨-, -, e⟩ | ⟨hcal, c, hc, e⟩ <;> cases e.symm.trans ht
  · exact ⟨rfl, rfl⟩
  · show (cycleRegs s.cfg c s.regs).ticks = _ ∧ (cycleRegs s.cfg c s.regs).pulses = _
    rw [cycleRegs]
    cases hsel : select s.cfg.crossBandMin c s.regs.sense s.regs.ticks s.regs.pulses with
    | none => exact ⟨rfl, rfl⟩
    | some r =>
      have hrst : ¬ r.rst = true := fun h => hno (.inr ⟨rfl, hcal, c, r, hc, hsel, h⟩)
      simp [applyRule_some_ticks, applyRule_some_pulses, hrst]

theorem le_bump (v : Word) : v.toNat ≤ (bump v).toNat := by
  rw [bump_toNat]
  omega

/-- Neither counter falls in an operation that does not clear them (R234 to R236). -/
theorem exec_counters_le (ht : exec i s = .next t) (hno : ¬ clearsCounters i s) :
    s.regs.ticks.toNat ≤ t.regs.ticks.toNat ∧ s.regs.pulses.toNat ≤ t.regs.pulses.toNat := by
  cases exec_leaves ht with
  | evTick => exact ⟨le_bump _, le_rfl⟩
  | evEnc => exact ⟨le_rfl, le_bump _⟩
  | evBoth => exact ⟨le_bump _, le_bump _⟩
  | fsmCycle =>
    obtain ⟨hticks, hpulses⟩ := exec_fsmCycle_keeps_counters ht hno
    exact ⟨hticks ▸ le_rfl, hpulses ▸ le_rfl⟩
  | reset => exact absurd (.inl rfl) hno
  | _ => exact ⟨le_rfl, le_rfl⟩

end

/-- A guard on a counter that has not fallen still holds (R171). -/
theorem thrFires_mono {t e t' e' : Word} (ht : t.toNat ≤ t'.toNat) (he : e.toNat ≤ e'.toNat) {x : ThrEntry}
    (h : thrFires t e x = true) : thrFires t' e' x = true := by
  rw [thrFires_iff] at h ⊢
  refine h.trans_le ?_
  cases x.counter
  · exact ht
  · exact he

/-- Settles O40, by induction on the operations: each keeps or raises both counters. -/
theorem thresholdGuardsStayTrue : Obligations.ThresholdGuardsStayTrue := by
  intro l s t x hno ht hx
  induction l generalizing s with
  | nil =>
    cases ht
    exact hx
  | cons i l ih =>
    obtain ⟨hi, hl⟩ := hno
    cases hu : exec i s with
    | fault f => cases f
    | refused r =>
      rw [execAll, hu] at ht
      cases ht
    | next u =>
      rw [execAll_cons hu] at ht
      obtain ⟨hticks, hpulses⟩ := exec_counters_le hu hi
      exact ih u (hl u hu) ht (thrFires_mono hticks hpulses hx)

/-! ### `CMDOUT` (R179) and `SENSE.LD` (R180) -/

/-- A field of the upper of two parts is a field of the whole, above the lower part. -/
theorem extractLsb'_append_above {v n start len : Nat} {hi : BitVec v} {lo : BitVec n} {x : BitVec len}
    (h : hi.extractLsb' start len = x) : (hi ++ lo).extractLsb' (start + n) len = x := by
  rw [BitVec.extractLsb'_append_eq_of_le (Nat.le_add_left n start), Nat.add_sub_cancel, h]

/-- `CMDOUT` from the values of the registers as integers (R30, R179). -/
theorem cmdOut_eq_ofInt (s : State) :
    cmdOut s = (0 : BitVec 2) ++ s.regs.state ++ BitVec.ofInt 9 s.regs.steer.toInt ++
      BitVec.ofInt 8 s.regs.speedL.toInt ++ BitVec.ofInt 8 s.regs.speedR.toInt := by
  simp only [BitVec.ofInt_toInt]
  rfl

/-- Settles O22: the fields stand one above the other; the two examples are computed from their integers. -/
theorem cmdOutFields : Obligations.CmdOutFields := by
  refine ⟨fun s => ?_, fun s hstate hsteer hl hr => ?_, fun s hstate hsteer hl hr => ?_⟩
  · exact ⟨extractLsb'_append_above <| extractLsb'_append_above <| extractLsb'_append_above
        BitVec.extractLsb'_append_eq_left,
      extractLsb'_append_above <| extractLsb'_append_above <| extractLsb'_append_above
        BitVec.extractLsb'_append_eq_right,
      extractLsb'_append_above <| extractLsb'_append_above BitVec.extractLsb'_append_eq_right,
      extractLsb'_append_above BitVec.extractLsb'_append_eq_right,
      BitVec.extractLsb'_append_eq_right⟩
  · rw [cmdOut_eq_ofInt, hstate, hsteer, hl, hr]
    rfl
  · rw [cmdOut_eq_ofInt, hstate, hsteer, hl, hr]
    rfl

/-- Settles O41: `SENSE.LD` has no check beside the match of its row. -/
theorem senseLdResult : Obligations.SenseLdResult := ⟨mbzRejected_of_opcode _, fun _ _ => rfl⟩

end Sys2Proof.Proofs
end

section
/-! PROOFS. The event counters: what one event does (R231 to R233), and what a run of operations that clears no counter
leaves in them (R236). -/

namespace Sys2Proof.Proofs

open Sys2Proof.Machine Sys2Proof.Laws

/-! ### The events (R231 to R233) -/

/-- Settles O52: an event is `bump` on its counter, and the two counters are different registers. -/
theorem eventsIncrementTheirCounter : Obligations.EventsIncrementTheirCounter := by
  refine ⟨fun s => ?tick, fun s => ?edge, fun s => ?both, fun s => ?port, fun s => ?order⟩
  case tick => exact ⟨bump s.regs.ticks, bump_toNat _, rfl⟩
  case edge => exact ⟨bump s.regs.pulses, bump_toNat _, rfl⟩
  case both => exact ⟨bump s.regs.ticks, bump s.regs.pulses, bump_toNat _, bump_toNat _, rfl⟩
  case port => exact ⟨perform_of_decode rfl s, perform_of_decode rfl s, perform_of_decode rfl s⟩
  case order => exact ⟨rfl, rfl⟩

/-! ### The counters over a run (R236) -/

/-- The operations that are an event on the tick line (R231, R233). -/
def onTickLine (i : Instr) : Bool := i == .evTick || i == .evBoth

/-- The operations that are an event on the encoder line (R232, R233). -/
def onEncoderLine (i : Instr) : Bool := i == .evEnc || i == .evBoth

/-- The counter value `w` is `v` after `n` events, saturating (R234, R236). -/
def GrownBy (n : Nat) (v w : Word) : Prop := w.toNat = min (v.toNat + n) 4294967295

section
variable {n : Nat} {v w : Word}

theorem grownBy_zero (v : Word) : GrownBy 0 v v := by
  have hv := v.isLt
  unfold GrownBy
  omega

/-- One operation, an event or not, before `n` events. -/
theorem GrownBy.after_operation {b : Bool} (h : GrownBy n (if b then bump v else v) w) :
    GrownBy (n + if b then 1 else 0) v w := by
  cases b with
  | false => exact h
  | true =>
    have hw : w.toNat = min ((bump v).toNat + n) 4294967295 := h
    rw [bump_toNat] at hw
    show w.toNat = min (v.toNat + (n + 1)) 4294967295
    omega

theorem GrownBy.le (h : GrownBy n v w) : v.toNat ≤ w.toNat := by
  have hv := v.isLt
  unfold GrownBy at h
  omega

end

section
variable {i : Instr} {s t : State} {l : List Instr}

/-- An operation that does not clear the counters bumps those whose line it is an event of, and keeps the others. -/
theorem exec_counters (ht : exec i s = .next t) (hno : ¬ clearsCounters i s) :
    t.regs.ticks = (if onTickLine i then bump s.regs.ticks else s.regs.ticks) ∧
      t.regs.pulses = if onEncoderLine i then bump s.regs.pulses else s.regs.pulses := by
  cases i with
  | evTick | evEnc | evBoth =>
    cases ht
    exact ⟨rfl, rfl⟩
  | fsmCycle => exact exec_fsmCycle_keeps_counters ht hno
  | reset => exact absurd (.inl rfl) hno
  | _ =>
    have h := exec_leaves ht
    exact ⟨not_ne_iff.1 fun hne => by simpa using h.ticks_writers hne,
      not_ne_iff.1 fun hne => by simpa using h.pulses_writers hne⟩

/-- A run that completes has completed its first operation. -/
theorem execAll_cons_next (h : execAll (i :: l) s = .next t) :
    ∃ u, exec i s = .next u ∧ execAll l u = .next t := by
  cases hu : exec i s with
  | next u => exact ⟨u, rfl, (execAll_cons hu l).symm.trans h⟩
  | fault f => cases f
  | refused r =>
    rw [execAll, hu] at h
    cases h

/-- Each counter has counted the events of its line. -/
theorem execAll_counters (hno : noClear l s) (ht : execAll l s = .next t) :
    GrownBy (l.countP onTickLine) s.regs.ticks t.regs.ticks ∧
      GrownBy (l.countP onEncoderLine) s.regs.pulses t.regs.pulses := by
  induction l generalizing s with
  | nil =>
    cases ht
    exact ⟨grownBy_zero _, grownBy_zero _⟩
  | cons i l ih =>
    obtain ⟨hi, hl⟩ := hno
    obtain ⟨u, hu, ht⟩ := execAll_cons_next ht
    obtain ⟨hticks, hpulses⟩ := exec_counters hu hi
    obtain ⟨iht, ihp⟩ := ih (hl u hu) ht
    rw [hticks] at iht
    rw [hpulses] at ihp
    rw [List.countP_cons, List.countP_cons]
    exact ⟨iht.after_operation, ihp.after_operation⟩

end

/-- Settles O53, by induction on the operations: each adds its event to what the rest of the run counts. -/
theorem countersCountEvents : Obligations.CountersCountEvents := by
  intro l s t hno ht
  obtain ⟨hticks, hpulses⟩ := execAll_counters hno ht
  exact ⟨hticks, hpulses, hticks.le, hpulses.le⟩

end Sys2Proof.Proofs
end

section
/-! PROOFS. `NOP` (`spec/45_access.md`, R250). -/

namespace Sys2Proof.Proofs

open Sys2Proof.Machine Sys2Proof.Laws

/-- `NOP` has no check beside the match of its row, and no register to write. -/
theorem exec_nop (s : State) : exec .nop s = .next (answer .ok 0 s) := respond_eq 0 s

/-- Settles O18: the words outside the row are rejected as for every opcode, and `NOP` itself is answered in every state. -/
theorem nopResponds : Obligations.NopResponds := ⟨mbzRejected_of_opcode .nop, exec_nop⟩

end Sys2Proof.Proofs
end

section
/-! PROOFS. Exceptions (`spec/60_exceptions.md`): the block takes none. Every operation completes and there is no halt
(R260), a rejected command writes nothing (R262), and each command has its own list of statuses (R264). -/

namespace Sys2Proof.Proofs

open Sys2Proof.Machine Sys2Proof.Laws

/-! ### No halt (R260, R303, R305) -/

section
variable {s : State}

/-- Under the invariant every request completes: each command is answered, and events and reset are never rejected. -/
theorem perform_completes (hs : State.Inv s) (r : Request) : ∃ t, perform r s = .next t := by
  cases r with
  | command w =>
    obtain ⟨st, v, u, h⟩ := perform_command_answers w hs
    exact ⟨_, h⟩
  | event ev =>
    obtain ⟨t, h, -⟩ := perform_event_keeps_resp ev s
    exact ⟨t, h⟩
  | resetLine rst =>
    obtain ⟨t, h, -⟩ := perform_resetLine_keeps_resp rst s
    exact ⟨t, h⟩

/-- Under the invariant the machine takes a step, whatever the ports present: idle, or one request that completes. -/
theorem step_completes (hs : State.Inv s) : ∃ t, step s = .next t := by
  obtain ⟨ps, n, e | ⟨r, e⟩⟩ := step_cases hs.1
  · exact ⟨_, e⟩
  · obtain ⟨t, ht⟩ := perform_completes (s := withPorts ps n none s) hs r
    exact ⟨t, e.trans ht⟩

end

/-- Settles O59, by induction on the number of steps: each completes and keeps the invariant, so the next one does. -/
theorem machineNeverStops : Obligations.MachineNeverStops := by
  intro n
  induction n with
  | zero => exact fun s hs => ⟨s, rfl, hs⟩
  | succ n ih =>
    intro s hs
    obtain ⟨u, hu⟩ := step_completes hs
    obtain ⟨t, hrun, ht⟩ := ih u (stepKeepsInvariant s u hs hu)
    exact ⟨t, (run_succ (M := Sys2Proof.core) hu n).trans hrun, ht⟩

/-! ### What a response says of its command (R262, R264) -/

section
variable {i : Instr} {s t : State} {p : Response}

/-- A command that completes without the status `OK` has value 0 and leaves everything but the response. -/
theorem exec_eq_answer_of_not_ok (hi : i.isCommand = true) (h : exec i s = .next t) (hp : t.resp = some p)
    (hst : p.status ≠ .ok) : t = answer p.status 0 s := by
  cases exec_commandEnd hi s with
  | rejected st _ e =>
    cases e.symm.trans h
    cases hp
    rfl
  | performed v u e =>
    cases e.symm.trans h
    cases hp
    exact absurd rfl hst
  | reservedState _ _ e => cases e.symm.trans h

/-- So it is for every command word, one that encodes no command among them (R88). -/
theorem perform_command_eq_answer_of_not_ok {w : CmdWord} (h : perform (.command w) s = .next t)
    (hp : t.resp = some p) (hst : p.status ≠ .ok) : t = answer p.status 0 s := by
  cases hd : decodeCommand w with
  | error e =>
    cases (perform_of_decodeCommand_error hd s).symm.trans h
    cases hp
    rfl
  | ok i =>
    rw [perform_of_decode (r := .command w) hd] at h
    exact exec_eq_answer_of_not_ok (isCommand_of_decodeCommand hd) h hp hst

/-- An event or a reset completes in every state and leaves the response port alone (R13, R267, R290). -/
theorem exec_event_keeps_resp (hi : i.isCommand = false) (s : State) :
    ∃ t, exec i s = .next t ∧ t.resp = s.resp := by
  cases i with
  | evTick => exact ⟨tick s, rfl, tick_resp s⟩
  | evEnc => exact ⟨encoderEdge s, rfl, encoderEdge_resp s⟩
  | evBoth => exact ⟨encoderEdge (tick s), rfl, encoderEdge_resp (tick s)⟩
  | reset => exact ⟨{ s with regs := Regs.reset s.cfg.nPid }, rfl, rfl⟩
  | _ => cases hi

/-- The status that a command has responded with is the one it was answered with. -/
theorem status_mem_of_answer {x : Result} {st : Status} {v : Word} {u : State} {l : List Status} (h : x = .next t)
    (hp : t.resp = some p) (e : x = .next (answer st v u)) (hst : st ∈ l) : p.status ∈ l := by
  cases e.symm.trans h
  cases hp
  exact hst

end

/-- Settles O8: a command that is not performed is rejected, and what is no command is one of four operations that
cannot fail. -/
theorem rejectedCommandsWriteNothing : Obligations.RejectedCommandsWriteNothing :=
  ⟨fun _ _ _ _ _ h hp hst => perform_command_eq_answer_of_not_ok h hp hst, fun _ s hi => exec_event_keeps_resp hi s⟩

/-- Settles O10: the row of R264 has the status of each end of the command's meaning. -/
theorem statusesEachCommandCanReturn : Obligations.StatusesEachCommandCanReturn := by
  intro i s t p hi h hp
  cases i with
  | nop => exact status_mem_of_answer h hp (exec_nop s) (by simp)
  | rd addr =>
    rcases execRd_cases addr s with ⟨-, e⟩ | ⟨r, -, e⟩ <;> exact status_mem_of_answer h hp e (by simp)
  | pidInit k gp gi gd =>
    rcases execPidInit_cases k gp gi gd s with ⟨-, e⟩ | ⟨-, -, e⟩ | ⟨-, -, e⟩ <;>
      exact status_mem_of_answer h hp e (by simp)
  | pidStep k sp pv =>
    rcases execPidStep_cases k sp pv s with ⟨-, e⟩ | ⟨-, -, e⟩ | ⟨-, -, e⟩ <;>
      exact status_mem_of_answer h hp e (by simp)
  | pidRsti k =>
    rcases execPidRsti_cases k s with ⟨-, e⟩ | ⟨-, -, e⟩ | ⟨-, -, e⟩ <;>
      exact status_mem_of_answer h hp e (by simp)
  | fsmCycle =>
    rcases execFsmCycle_cases s with ⟨-, e⟩ | ⟨-, -, e⟩ | ⟨-, c, -, e⟩
    · exact status_mem_of_answer h hp e (by simp)
    · cases e.symm.trans h
    · exact status_mem_of_answer h hp e (by simp)
  | senseLd m => exact status_mem_of_answer h hp (respond_eq 0 (setSense s m)) (by simp)
  | clsSample n raw =>
    rcases execClsSample_cases n raw s with ⟨-, e⟩ | ⟨-, -, e⟩ | ⟨-, -, e⟩ <;>
      exact status_mem_of_answer h hp e (by simp)
  | clsClassify =>
    rcases execClsClassify_cases s with ⟨-, e⟩ | ⟨-, e⟩ <;> exact status_mem_of_answer h hp e (by simp)
  | calBegin =>
    rcases execCalBegin_cases s with ⟨-, e⟩ | ⟨-, e⟩ <;> exact status_mem_of_answer h hp e (by simp)
  | calUpdate =>
    rcases execCalUpdate_cases s with ⟨-, e⟩ | ⟨-, e⟩ <;> exact status_mem_of_answer h hp e (by simp)
  | calEnd =>
    rcases execCalEnd_cases s with ⟨-, e⟩ | ⟨-, e⟩ <;> exact status_mem_of_answer h hp e (by simp)
  | calLoad n min max =>
    rcases execCalLoad_cases n min max s with ⟨-, e⟩ | ⟨-, -, e⟩ | ⟨-, -, -, e⟩ | ⟨-, -, -, e⟩ <;>
      exact status_mem_of_answer h hp e (by simp)
  | evTick | evEnc | evBoth | reset => cases hi

end Sys2Proof.Proofs
end
